-- ==== Sys2Proof/Word.lean ====
section
/-! DEFINITION. Bytes and byte sequences (00_scope.md R10, R11). -/

namespace Sys2Proof

/-- A byte, an integer 0 to 255, bit 0 the least significant (00_scope.md R10). -/
abbrev Byte := BitVec 8

/-- A finite sequence of bytes; index 0 is the first byte, the oldest, the leftmost (00_scope.md R11). -/
abbrev Bytes := List Byte

end Sys2Proof
end

