-- ==== Sys2Proof/Config.lean ====
section
/-! DEFINITION. The constants the source fixes (00_scope.md R8) and the parameters it leaves open (00_scope.md R9). -/

namespace Sys2Proof

namespace Config

/-- The sync byte, first byte of every frame (00_scope.md R8). -/
def SYNC : Byte := 0x55

/-- The device address byte, second byte of every frame the block sends (00_scope.md R8). -/
def ADDR : Byte := 0x11

/-- Bytes of a frame that are not payload (00_scope.md R8). -/
abbrev OVERHEAD : Nat := 5

/-- Largest payload length (00_scope.md R8). -/
abbrev MAX_PAYLOAD : Nat := 255

/-- `OVERHEAD + MAX_PAYLOAD` (00_scope.md R8). -/
abbrev MAX_FRAME : Nat := 260

/-- Command code of the knock request (00_scope.md R8). -/
def CC_KNOCK : Byte := 0x2C

/-- Command code of the OK response (00_scope.md R8). -/
def CC_OK : Byte := 0x2E

/-! The eight command codes whose values are not in the source (30_encoding.md R89, 92_eei_decisions.md D26).
Each is a free byte: it has no body, so nothing can be proved of its value. Log 4. -/

/-- Free value: the algorithm-select code of an instance that was given none. -/
opaque ccAlgorithm : Byte
/-- Free value: the blocks-request code of an instance that was given none. -/
opaque ccBlocks : Byte
/-- Free value: the arrows-request code of an instance that was given none. -/
opaque ccArrows : Byte
/-- Free value: the learn code of an instance that was given none. -/
opaque ccLearn : Byte
/-- Free value: the forget code of an instance that was given none. -/
opaque ccForget : Byte
/-- Free value: the block-record code of an instance that was given none. -/
opaque ccRetBlock : Byte
/-- Free value: the arrow-record code of an instance that was given none. -/
opaque ccRetArrow : Byte
/-- Free value: the info code of an instance that was given none. -/
opaque ccRetInfo : Byte

end Config

/-- The command/response vocabulary: six requests and four responses (30_encoding.md R88). -/
inductive Command where
  | knock | algorithmSelect | blocksRequest | arrowsRequest | learn | forget
  | ok | blockRecord | arrowRecord | info
  deriving DecidableEq, Repr

/-- The command codes the source does not give, as the instance has been given them; `none` is "not given".
No rule of the block reads them (00_scope.md R9, 30_encoding.md R89). Log 4. -/
structure Vocabulary where
  algorithm : Option Byte
  blocks : Option Byte
  arrows : Option Byte
  learn : Option Byte
  forget : Option Byte
  retBlock : Option Byte
  retArrow : Option Byte
  retInfo : Option Byte
  deriving DecidableEq, Repr

/-- The source's own vocabulary: only knock and OK have values (30_encoding.md R89). -/
def Vocabulary.ofSource : Vocabulary :=
  { algorithm := none, blocks := none, arrows := none, learn := none, forget := none,
    retBlock := none, retArrow := none, retInfo := none }

/-- The byte of each command: the source's (knock, OK), the one the instance was given, or a free byte. -/
def Vocabulary.code (v : Vocabulary) : Command → Byte
  | .knock => Config.CC_KNOCK
  | .algorithmSelect => v.algorithm.getD Config.ccAlgorithm
  | .blocksRequest => v.blocks.getD Config.ccBlocks
  | .arrowsRequest => v.arrows.getD Config.ccArrows
  | .learn => v.learn.getD Config.ccLearn
  | .forget => v.forget.getD Config.ccForget
  | .ok => Config.CC_OK
  | .blockRecord => v.retBlock.getD Config.ccRetBlock
  | .arrowRecord => v.retArrow.getD Config.ccRetArrow
  | .info => v.retInfo.getD Config.ccRetInfo

/-- The parameters of one block instance (00_scope.md R9). No step of the machine writes them. Log 3.
`TICK_PERIOD` is read by no rule and is left out (log 19). -/
structure Params where
  /-- `HAS_CORR`: whether the correlator is built (00_scope.md R2). -/
  hasCorr : Bool
  /-- `ACC_CAP`: the accumulator's capacity, `none` for unbounded. -/
  accCap : Option Nat
  /-- `TIMER_W`: width in bits of `X.ELAPSED`, `X.TIMEOUT`, `X.POLLCNT`. -/
  timerW : Nat
  /-- `POLL_INTERVAL`: ticks between attempts of an exchange. -/
  pollInterval : Nat
  /-- The command codes. -/
  vocab : Vocabulary
  deriving DecidableEq, Repr

/-- The legal ranges of 00_scope.md R9. Outside them nothing is described (93 U23, log 16). -/
def Params.legal (p : Params) : Bool :=
  (match p.accCap with
    | none => true
    | some cap => decide (Config.MAX_FRAME ≤ cap)) &&
  decide (1 ≤ p.timerW) && decide (1 ≤ p.pollInterval) && decide (p.pollInterval ≤ 2 ^ p.timerW - 1)

/-- The values the spec uses in its examples (00_scope.md R9), the command codes not given. -/
def Config.exampleParams : Params :=
  { hasCorr := true, accCap := some 520, timerW := 32, pollInterval := 2, vocab := Vocabulary.ofSource }

end Sys2Proof
end

