-- ==== Sys2Proof/Syntax.lean ====
section
/-! DEFINITION. The instructions, one constructor per row of spec/opcode_table.json, and what the agents
present to the block. -/

namespace Sys2Proof

/-- How the host has a frame written: by SEND, or by XCHG with a timeout (40_codec_ops.md R122,
41_correlator_ops.md R152, R161). Log 7. -/
inductive Via where
  | send
  | exchange (timeout : Nat)
  deriving DecidableEq, Repr

/-- One instruction. Frames the block receives carry the received address and checksum byte; frames it sends
carry neither, since the block writes `ADDR` and generates the checksum (40_codec_ops.md R112). A row whose
command value is not in the source carries its command byte `c`, the row's field `c`. -/
inductive Instr where
  -- wire frames, received (30_encoding.md R80, R86, R92)
  | frame (addr cmd : Byte) (payload : Bytes) (ck : Byte)
  | ok (addr : Byte) (payload : Bytes) (ck : Byte)
  | blockRecord (addr cmd : Byte) (payload : Bytes) (ck : Byte)
  | arrowRecord (addr cmd : Byte) (payload : Bytes) (ck : Byte)
  | info (addr cmd : Byte) (payload : Bytes) (ck : Byte)
  -- wire frames, sent (30_encoding.md R80, R90)
  | frameTx (cmd : Byte) (payload : Bytes) (via : Via)
  | knock (via : Via)
  | algorithmSelect (cmd : Byte) (payload : Bytes) (via : Via)
  | blocksRequest (cmd : Byte) (via : Via)
  | arrowsRequest (cmd : Byte) (via : Via)
  | learn (cmd : Byte) (id : BitVec 16) (via : Via)
  | forget (cmd : Byte) (via : Via)
  -- host operations (30_encoding.md R95)
  | stat
  | send (cmd : Byte) (payload : Bytes)
  | fill (max : Nat)
  | decode
  | drop (n : Nat)
  | flush
  | cfgwr (value : Byte)
  | xchg (cmd : Byte) (payload : Bytes) (timeout : Nat)
  | xres
  -- reserved host operation codes (30_encoding.md R96)
  | reserved7
  | reservedA
  | reservedB
  | reservedC
  | reservedD
  | reservedE
  | reservedF
  -- events (41_correlator_ops.md R154 to R156, 70_reset_and_hazards.md R210)
  | tick
  | reset
  deriving DecidableEq, Repr

/-- The operand values of the host port (30_encoding.md R95, R99). Every operation reads the ones its row names. -/
structure HostArgs where
  cmd : Byte
  payload : Bytes
  /-- `max` of FILL, `n` of DROP. -/
  count : Nat
  value : Byte
  timeout : Nat
  deriving DecidableEq, Repr

/-- All operand values zero. -/
def HostArgs.zero : HostArgs := { cmd := 0, payload := [], count := 0, value := 0, timeout := 0 }

/-- What reaches the decoder: a code on the host port, a frame at the front of the accumulator, a frame to be
sent (its bytes up to the payload's end: the checksum is generated, not presented), or an event. -/
inductive Code where
  | port (op : BitVec 4) (args : HostArgs)
  | received (bytes : Bytes)
  | sent (bytes : Bytes) (via : Via)
  | tick
  | reset
  deriving DecidableEq, Repr

/-- The command pseudo-operations, each an XCHG with fixed operands (41_correlator_ops.md R161). -/
inductive Pseudo where
  | knock
  | learn (id : BitVec 16)
  | forget
  | blocks
  | arrows
  deriving DecidableEq, Repr

/-- What an agent does in one step (00_scope.md R5, 30_encoding.md R97). Log 1. -/
inductive Input where
  /-- A host operation (30_encoding.md R95). -/
  | host (op : BitVec 4) (args : HostArgs)
  /-- The host has a frame sent, given by its bytes up to the payload's end. -/
  | request (bytes : Bytes) (via : Via)
  /-- RECV (40_codec_ops.md R135). -/
  | recv
  /-- KNOCK, LEARN, FORGET, BLOCKS, ARROWS (41_correlator_ops.md R161). -/
  | command (c : Pseudo) (timeout : Nat)
  /-- AWAIT (41_correlator_ops.md R161). -/
  | await
  /-- The time base. -/
  | tick
  /-- The reset input. -/
  | reset
  /-- The transport: `Arrive(s)`, `Close`, `Open` (20_memory.md R57). -/
  | arrive (s : Bytes)
  | closeLink
  | openLink
  deriving DecidableEq, Repr

/-- Why the decoder rejects what it is given. -/
inductive DecodeError where
  /-- Fewer than 5 bytes are held (40_codec_ops.md R114 step 1). -/
  | short
  /-- The first byte is not `SYNC`; `drop` bytes precede the next one (40_codec_ops.md R114 step 2). -/
  | noSync (drop : Nat)
  /-- Fewer bytes are held than the frame needs (40_codec_ops.md R114 step 3). -/
  | partialFrame (need : Nat)
  /-- A frame to be sent that the block cannot build: not `SYNC`, `ADDR`, length, command and exactly that many
  payload bytes (30_encoding.md R80, R81). -/
  | notSendable
  /-- A timeout of `2^TIMER_W` or more does not fit the port of a block with a correlator (93 U19, log 12, log 22). -/
  | timeoutTooWide
  deriving DecidableEq, Repr

end Sys2Proof
end

