-- ==== Sys2Proof/Decode.lean ====
section
/-! DEFINITION. The checksum, the decoder from what reaches the block to an instruction, and the encoder
(30_encoding.md, 40_codec_ops.md R110 to R114). -/

namespace Sys2Proof

/-! ## The checksum -/

/-- `sum(s)`, in the integers (00_scope.md R11). -/
def byteSum : Bytes → Nat
  | [] => 0
  | b :: bs => b.toNat + byteSum bs

/-- `Checksum(s) = sum(s) mod 256` (40_codec_ops.md R110). -/
def checksum (s : Bytes) : Byte := BitVec.ofNat 8 (byteSum s % 256)

/-- The length byte of a payload (00_scope.md R10: `zext`, no change of value while it fits). -/
def lengthByte (payload : Bytes) : Byte := BitVec.ofNat 8 payload.length

/-- The checksum of a frame: `Checksum([a, L, c] ++ p)` (40_codec_ops.md R110, 30_encoding.md R83). -/
def frameChecksum (addr cmd : Byte) (payload : Bytes) : Byte :=
  checksum ([addr, lengthByte payload, cmd] ++ payload)

/-! ## Reading a frame at the front of a buffer -/

/-- A frame's fields as they stand on the wire (30_encoding.md R80). -/
structure WireFrame where
  addr : Byte
  cmd : Byte
  payload : Bytes
  ck : Byte
  deriving DecidableEq, Repr

/-- `ck_ok`: the trailing byte equals the recomputed checksum (40_codec_ops.md R114 step 5). -/
def WireFrame.ckOk (f : WireFrame) : Bool := frameChecksum f.addr f.cmd f.payload == f.ck

/-- The number of bytes a frame with this payload occupies (30_encoding.md R80, R82). -/
def frameLength (payload : Bytes) : Nat := Config.OVERHEAD + payload.length

/-- How many bytes precede the first `SYNC`, all of them if there is none. DESIGN CHOICE: the search goes over every
byte, as 40_codec_ops.md R114 step 2 writes it, also past the 260 bytes that 20_memory.md R63 gives DECODE; the spec
does not say which of the two holds in a longer buffer. Log 23. -/
def bytesBeforeSync : Bytes → Nat
  | [] => 0
  | b :: bs => if b = Config.SYNC then 0 else 1 + bytesBeforeSync bs

/-- The frame at the front of a buffer: steps 1 to 3 of Decode and the fields step 4 reads
(40_codec_ops.md R114, 20_memory.md R64). Step 2 looks at every byte held (log 23). -/
def readFrame (buf : Bytes) : Except DecodeError WireFrame :=
  match buf with
  | sync :: addr :: len :: cmd :: b4 :: rest =>
      if sync ≠ Config.SYNC then
        .error (.noSync (1 + bytesBeforeSync (addr :: len :: cmd :: b4 :: rest)))
      else if buf.length < Config.OVERHEAD + len.toNat then
        .error (.partialFrame (Config.OVERHEAD + len.toNat))
      else
        .ok { addr := addr, cmd := cmd, payload := (buf.drop 4).take len.toNat,
              ck := (buf.drop (4 + len.toNat)).headD 0 }
  | _ => .error .short

/-- The frame's command byte and payload as a host asks for them: `SYNC`, `ADDR`, length, command and exactly
that many payload bytes (30_encoding.md R80, R81). -/
def readRequest : Bytes → Except DecodeError (Byte × Bytes)
  | sync :: addr :: len :: cmd :: payload =>
      if sync = Config.SYNC ∧ addr = Config.ADDR ∧ payload.length = len.toNat then .ok (cmd, payload)
      else .error .notSendable
  | _ => .error .notSendable

/-! ## 16-bit payload fields -/

/-- The two bytes of a 16-bit payload field, least significant first (20_memory.md R61, 30_encoding.md R91). -/
def learnPayload (id : BitVec 16) : Bytes :=
  [BitVec.ofNat 8 (id.toNat % 256), BitVec.ofNat 8 (id.toNat / 256)]

/-- The 16-bit value of two payload bytes, `b0 + 256 * b1` (20_memory.md R61). -/
def learnId (b0 b1 : Byte) : BitVec 16 := BitVec.ofNat 16 (b0.toNat + 256 * b1.toNat)

/-! ## The decoder -/

/-- A payload fits the one-byte length field (30_encoding.md R80). -/
def payloadFits (payload : Bytes) : Bool := decide (payload.length ≤ Config.MAX_PAYLOAD)

/-- A timeout fits the `TIMER_W` bits of its port (30_encoding.md R95, 93 U19). DESIGN CHOICE: without a correlator
any value fits, since code 0x8 is reserved then and reads no operand (93 U13), so that BadOp wins over the refusal of
a wide timeout; the spec names no such case. Log 22. -/
def timeoutFits (p : Params) (timeout : Nat) : Bool := !p.hasCorr || decide (timeout < 2 ^ p.timerW)

/-- The timeout of a frame sent by an exchange fits its port. -/
def Via.fits (p : Params) : Via → Bool
  | .send => true
  | .exchange timeout => timeoutFits p timeout

/-- The command byte and payload are those of the request named (30_encoding.md R90). -/
def Vocabulary.names (v : Vocabulary) (cmd : Byte) (payload : Bytes) : Command → Bool
  | .knock => cmd == Config.CC_KNOCK && payload.isEmpty
  | .algorithmSelect => v.algorithm == some cmd
  | .blocksRequest => v.blocks == some cmd && payload.isEmpty
  | .arrowsRequest => v.arrows == some cmd && payload.isEmpty
  | .learn => v.learn == some cmd && payload.length == 2
  | .forget => v.forget == some cmd && payload.isEmpty
  | .ok => cmd == Config.CC_OK
  | .blockRecord => v.retBlock == some cmd
  | .arrowRecord => v.retArrow == some cmd
  | .info => v.retInfo == some cmd

/-- The byte and payload are named by no command of the list. -/
def Vocabulary.unnamed (v : Vocabulary) (cmd : Byte) (payload : Bytes) (earlier : List Command) : Bool :=
  earlier.all fun c => !v.names cmd payload c

/-- The row of a received frame (30_encoding.md R88, R90): by the OK byte, then by the response codes the
instance was given, else FRAME. Log 8. -/
def receivedRow (v : Vocabulary) (f : WireFrame) : Instr :=
  if v.names f.cmd f.payload .ok then .ok f.addr f.payload f.ck
  else if v.names f.cmd f.payload .blockRecord then .blockRecord f.addr f.cmd f.payload f.ck
  else if v.names f.cmd f.payload .arrowRecord then .arrowRecord f.addr f.cmd f.payload f.ck
  else if v.names f.cmd f.payload .info then .info f.addr f.cmd f.payload f.ck
  else .frame f.addr f.cmd f.payload f.ck

/-- The row of a frame to be sent (30_encoding.md R88, R90): knock by its bytes, then by the request codes the
instance was given and the payload each carries, else FRAME.TX. Log 8. -/
def sentRow (v : Vocabulary) (cmd : Byte) (payload : Bytes) (via : Via) : Instr :=
  if v.names cmd payload .knock then .knock via
  else if v.names cmd payload .algorithmSelect then .algorithmSelect cmd payload via
  else if v.names cmd payload .blocksRequest then .blocksRequest cmd via
  else if v.names cmd payload .arrowsRequest then .arrowsRequest cmd via
  else
    match v.names cmd payload .learn, payload with
    | true, [b0, b1] => .learn cmd (learnId b0 b1) via
    | _, _ => if v.names cmd payload .forget then .forget cmd via else .frameTx cmd payload via

/-- The operation of a host port code and its operands (30_encoding.md R95, R96); all sixteen codes. -/
def hostOperation (op : BitVec 4) (args : HostArgs) : Instr :=
  match op.toNat with
  | 0x0 => .stat
  | 0x1 => .send args.cmd args.payload
  | 0x2 => .fill args.count
  | 0x3 => .decode
  | 0x4 => .drop args.count
  | 0x5 => .flush
  | 0x6 => .cfgwr args.value
  | 0x7 => .reserved7
  | 0x8 => .xchg args.cmd args.payload args.timeout
  | 0x9 => .xres
  | 0xA => .reservedA
  | 0xB => .reservedB
  | 0xC => .reservedC
  | 0xD => .reservedD
  | 0xE => .reservedE
  | _ => .reservedF -- the one code left: 0xF

/-- The decoder: total, rejecting by name. Only a timeout can fail to fit the host port (93 U19, log 12), and with
`HAS_CORR = 0` not even that: code 0x8 is then answered BadOp whatever its timeout (log 22). -/
def decode (p : Params) : Code → Except DecodeError Instr
  | .port op args =>
      if op = 0x8#4 ∧ timeoutFits p args.timeout = false then .error .timeoutTooWide
      else .ok (hostOperation op args)
  | .received bytes =>
      match readFrame bytes with
      | .ok f => .ok (receivedRow p.vocab f)
      | .error e => .error e
  | .sent bytes via =>
      match readRequest bytes with
      | .ok (cmd, payload) =>
          if via.fits p then .ok (sentRow p.vocab cmd payload via) else .error .timeoutTooWide
      | .error e => .error e
  | .tick => .ok .tick
  | .reset => .ok .reset

/-- The command pseudo-operations are XCHG with fixed operands (41_correlator_ops.md R161, 30_encoding.md R98). -/
def expandPseudo (v : Vocabulary) (timeout : Nat) : Pseudo → Code
  | .knock => .port 0x8 { HostArgs.zero with cmd := v.code .knock, timeout := timeout }
  | .learn id =>
      .port 0x8 { HostArgs.zero with cmd := v.code .learn, payload := learnPayload id, timeout := timeout }
  | .forget => .port 0x8 { HostArgs.zero with cmd := v.code .forget, timeout := timeout }
  | .blocks => .port 0x8 { HostArgs.zero with cmd := v.code .blocksRequest, timeout := timeout }
  | .arrows => .port 0x8 { HostArgs.zero with cmd := v.code .arrowsRequest, timeout := timeout }

/-! ## The encoder -/

/-- The frame's bytes up to the payload's end, as the block sends it (40_codec_ops.md R112). -/
def requestBytes (cmd : Byte) (payload : Bytes) : Bytes :=
  [Config.SYNC, Config.ADDR, lengthByte payload, cmd] ++ payload

/-- `Encode(cmd, payload)` (40_codec_ops.md R112), meant for `len(payload) <= 255`. -/
def encodeFrame (cmd : Byte) (payload : Bytes) : Bytes :=
  requestBytes cmd payload ++ [frameChecksum Config.ADDR cmd payload]

/-- A received frame's bytes (30_encoding.md R80). -/
def wireBytes (addr cmd : Byte) (payload : Bytes) (ck : Byte) : Bytes :=
  [Config.SYNC, addr, lengthByte payload, cmd] ++ payload ++ [ck]

/-- The encoding of an instruction, from the encodings of 30_encoding.md R80, R90, R95. -/
def encode : Instr → Code
  | .frame addr cmd payload ck => .received (wireBytes addr cmd payload ck)
  | .ok addr payload ck => .received (wireBytes addr Config.CC_OK payload ck)
  | .blockRecord addr cmd payload ck => .received (wireBytes addr cmd payload ck)
  | .arrowRecord addr cmd payload ck => .received (wireBytes addr cmd payload ck)
  | .info addr cmd payload ck => .received (wireBytes addr cmd payload ck)
  | .frameTx cmd payload via => .sent (requestBytes cmd payload) via
  | .knock via => .sent (requestBytes Config.CC_KNOCK []) via
  | .algorithmSelect cmd payload via => .sent (requestBytes cmd payload) via
  | .blocksRequest cmd via => .sent (requestBytes cmd []) via
  | .arrowsRequest cmd via => .sent (requestBytes cmd []) via
  | .learn cmd id via => .sent (requestBytes cmd (learnPayload id)) via
  | .forget cmd via => .sent (requestBytes cmd []) via
  | .stat => .port 0x0 HostArgs.zero
  | .send cmd payload => .port 0x1 { HostArgs.zero with cmd := cmd, payload := payload }
  | .fill max => .port 0x2 { HostArgs.zero with count := max }
  | .decode => .port 0x3 HostArgs.zero
  | .drop n => .port 0x4 { HostArgs.zero with count := n }
  | .flush => .port 0x5 HostArgs.zero
  | .cfgwr value => .port 0x6 { HostArgs.zero with value := value }
  | .xchg cmd payload timeout =>
      .port 0x8 { HostArgs.zero with cmd := cmd, payload := payload, timeout := timeout }
  | .xres => .port 0x9 HostArgs.zero
  | .reserved7 => .port 0x7 HostArgs.zero
  | .reservedA => .port 0xA HostArgs.zero
  | .reservedB => .port 0xB HostArgs.zero
  | .reservedC => .port 0xC HostArgs.zero
  | .reservedD => .port 0xD HostArgs.zero
  | .reservedE => .port 0xE HostArgs.zero
  | .reservedF => .port 0xF HostArgs.zero
  | .tick => .tick
  | .reset => .reset

/-! ## The opcode table's words -/

/-- The four header bytes of `H = sync * 2^24 + address * 2^16 + L * 2^8 + command` (30_encoding.md R81), in
wire order. -/
def headerBytes (h : Nat) : Bytes :=
  [BitVec.ofNat 8 (h / 2 ^ 24), BitVec.ofNat 8 (h / 2 ^ 16), BitVec.ofNat 8 (h / 2 ^ 8), BitVec.ofNat 8 h]

/-- A table word of 32 bits is a frame header, every later byte of the frame zero. A header `0x5511` is one the
block sends (30_encoding.md R81), but for an OK, which only a device sends (R88); every other header is one it
receives. Log 8. -/
def headerCode (h : Nat) : Code :=
  if h / 2 ^ 16 % 2 ^ 16 = 0x5511 ∧ BitVec.ofNat 8 h ≠ Config.CC_OK then
    .sent (headerBytes h ++ List.replicate (h / 2 ^ 8 % 256) 0) .send
  else
    .received (headerBytes h ++ List.replicate (Config.MAX_FRAME - 4) 0)

/-- The code of a table word: at most 8 bits, a host operation code in bits 3:0 with all operands zero; more
bits, a frame header. Log 9, log 10. -/
def tableCode (nbits w : Nat) : Code :=
  if nbits ≤ 8 then .port (BitVec.ofNat 4 w) HostArgs.zero else headerCode w

/-- The instruction the decoder reads from a word of spec/opcode_table.json, with the vocabulary of the source. -/
def decodeTableWord (nbits w : Nat) : Option Instr :=
  match decode Config.exampleParams (tableCode nbits w) with
  | .ok i => some i
  | .error _ => none

end Sys2Proof
end

