-- ==== Sys2Proof/Machine/State.lean ====
section
/-! DEFINITION. The state of the block and of the transport it meets, what a step returns, and reset
(10_state.md, 20_memory.md R50 to R57). -/

namespace Sys2Proof.Machine

/-- `X.STATE`, one bit (10_state.md R30). -/
inductive XState where
  | idle
  | busy
  deriving DecidableEq, Repr

/-- `X.RES.KIND`; codes 5 to 7 never occur (10_state.md R34, 93 U15). -/
inductive Kind where
  | none | frame | timeout | cksum | transport
  deriving DecidableEq, Repr

/-- `X.RES`, the result record of the last exchange (10_state.md R34). -/
structure XRes where
  kind : Kind
  addr : Byte
  plen : Byte
  cmd : Byte
  payload : Bytes
  ck : Byte
  ckOk : Bool
  expected : Byte
  deriving DecidableEq, Repr

/-- The record with this kind, every other field 0 and `PAYLOAD = []` (10_state.md R34). -/
def XRes.bare (kind : Kind) : XRes :=
  { kind := kind, addr := 0, plen := 0, cmd := 0, payload := [], ck := 0, ckOk := false, expected := 0 }

/-- The fields of a Frame verdict (00_scope.md R13). -/
structure FrameVerdict where
  addr : Byte
  plen : Byte
  cmd : Byte
  payload : Bytes
  ck : Byte
  ckOk : Bool
  consumed : Nat
  deriving DecidableEq, Repr

/-- A result of Decode (00_scope.md R13). -/
inductive Verdict where
  | incomplete
  | frame (f : FrameVerdict)
  | desynchronized (drop : Nat)
  | checksumMismatch (span : Nat) (expected got : Byte)
  deriving DecidableEq, Repr

/-- The status codes (30_encoding.md R96). -/
inductive Status where
  | ok | incomplete | frame | desynchronized | checksumMismatch | timeout | transportUnavailable
  | unexpectedResponseCode | busy | payloadTooLong | badDrop | badOp
  deriving DecidableEq, Repr

/-- The STAT record (10_state.md R28). -/
structure StatRecord where
  busy : Bool
  accLen : Nat
  strict : Bool
  xresKind : Kind
  elapsed : Nat
  timeout : Nat
  pollcnt : Nat
  deriving DecidableEq, Repr

/-- What a step returns to the host (30_encoding.md R95, R99). -/
inductive Response where
  /-- Nothing: an event, an environment step, or no step yet. -/
  | nothing
  | status (st : Status)
  /-- `Ok(n)` of FILL. -/
  | filled (n : Nat)
  | verdict (v : Verdict)
  | stat (r : StatRecord)
  | xres (r : XRes)
  deriving DecidableEq, Repr

/-- The machine's state. The timer registers are `TIMER_W` bits wide and `TIMER_W` is a parameter: they are
numbers, and that they fit is an invariant (log 15). -/
structure State where
  /-- The parameters of the instance; no step writes them (00_scope.md R9, log 3). -/
  params : Params
  /-- `ACC` (10_state.md R20). -/
  acc : Bytes
  /-- `CFG` (10_state.md R22). -/
  cfg : Byte
  /-- `X.STATE` (10_state.md R30). -/
  xState : XState
  /-- `X.ELAPSED` (10_state.md R31). -/
  xElapsed : Nat
  /-- `X.TIMEOUT` (10_state.md R32). -/
  xTimeout : Nat
  /-- `X.POLLCNT` (10_state.md R33). -/
  xPollcnt : Nat
  /-- `X.RES` (10_state.md R34). -/
  xRes : XRes
  /-- `TQ`, the transport's pending receive bytes (20_memory.md R53). -/
  tq : Bytes
  /-- `T.open` (20_memory.md R56). -/
  tOpen : Bool
  /-- `TXLOG`, the bytes written to the transport (20_memory.md R55). -/
  txlog : Bytes
  /-- What the last step returned (30_encoding.md R99, log 2). -/
  resp : Response
  /-- The steps the agents have yet to take, in order (00_scope.md R5, log 1). The model's own field. -/
  inputs : List Input
  deriving DecidableEq, Repr

/-- No step of this machine faults: the block has no traps, every failure is a returned status, a verdict or a
written result (60_exceptions.md R180). Safe: nothing the hardware does is left out by it. Log 20. -/
inductive Fault where
  deriving DecidableEq, Repr

/-- Why a step is refused. -/
inductive Refusal where
  /-- Raised by exec for an instruction that has no meaning yet: none. Safe. -/
  | notModelled (mnemonic : String)
  /-- Raised by step where the agents present what no port of the block carries: a timeout of `2^TIMER_W` or more
  on a block with a correlator (93 U19, log 22), or a frame to send that the block cannot build (30_encoding.md R81). Safe: the machine stops where the
  hardware has no such input. Log 12. -/
  | notExpressible (why : DecodeError)
  deriving DecidableEq, Repr

/-- The machine right after reset (10_state.md R40). The transport's fields, the response, the parameters and the
queue of steps have no reset value in the spec: log 1, 2, 3, 5. -/
def State.reset : State :=
  { params := Config.exampleParams,
    acc := [], cfg := 0x01, xState := .idle, xElapsed := 0, xTimeout := 0, xPollcnt := 0,
    xRes := XRes.bare .none,
    tq := [], tOpen := true, txlog := [], resp := .nothing, inputs := [] }

end Sys2Proof.Machine
end

