-- ==== Sys2Proof/Machine/Flags.lean ====
section
/-! DEFINITION. The flag-like values (10_state.md R27) and the numeric codes of statuses and kinds
(30_encoding.md R96, 10_state.md R34). -/

namespace Sys2Proof.Machine

/-- `CFG.STRICT`, bit 0 of `CFG` (10_state.md R22). -/
def State.strict (s : State) : Bool := s.cfg.getLsbD 0

/-- What a write of `CFG` stores: bit 0 of the operand, bits 7:1 zero (10_state.md R22, 40_codec_ops.md R132). -/
def cfgOf (value : Byte) : Byte := value &&& 0x01

/-- The busy flag (10_state.md R28): `X.STATE = BUSY`, constantly false without a correlator
(40_codec_ops.md R121, 00_scope.md R2). -/
def State.busy (s : State) : Bool := s.params.hasCorr && s.xState == .busy

/-- The code of `X.STATE` (10_state.md R30). -/
def XState.code : XState → Nat
  | .idle => 0
  | .busy => 1

/-- The code of `X.RES.KIND` (10_state.md R34). -/
def Kind.code : Kind → Nat
  | .none => 0
  | .frame => 1
  | .timeout => 2
  | .cksum => 3
  | .transport => 4

/-- The numeric code of a status (30_encoding.md R96). -/
def Status.code : Status → Nat
  | .ok => 0
  | .incomplete => 1
  | .frame => 2
  | .desynchronized => 3
  | .checksumMismatch => 4
  | .timeout => 5
  | .transportUnavailable => 6
  | .unexpectedResponseCode => 7
  | .busy => 8
  | .payloadTooLong => 9
  | .badDrop => 10
  | .badOp => 11

/-- The status of a verdict, codes 1 to 4 (30_encoding.md R96). -/
def Verdict.status : Verdict → Status
  | .incomplete => .incomplete
  | .frame _ => .frame
  | .desynchronized _ => .desynchronized
  | .checksumMismatch _ _ _ => .checksumMismatch

/-- The status an exchange's failed kind maps to (30_encoding.md R96); NONE and FRAME map to none. -/
def Kind.status : Kind → Option Status
  | .cksum => some .checksumMismatch
  | .timeout => some .timeout
  | .transport => some .transportUnavailable
  | .none => Option.none
  | .frame => Option.none

/-- The status a response carries: every operation but STAT and XRES answers with one (30_encoding.md R95, R96). -/
def Response.statusOf : Response → Option Status
  | .status st => some st
  | .filled _ => some .ok
  | .verdict v => some v.status
  | .nothing | .stat _ | .xres _ => none

end Sys2Proof.Machine
end

