-- ==== Sys2Proof/Machine/Operands.lean ====
section
/-! DEFINITION. The operand forms: bytes of the accumulator by index, the operand checks of the host operations,
and the counts and saturations the operations compute (00_scope.md R12, 40_codec_ops.md R122 to R128). -/

namespace Sys2Proof.Machine

/-- `ACC[i]`; the rules read it only for `i < ACC_LEN` (00_scope.md R11, R12). -/
def accByte (acc : Bytes) (i : Nat) : Byte := acc.getD i 0

/-- A payload the operations accept: at most 255 bytes (40_codec_ops.md R122). -/
def payloadTooLong (payload : Bytes) : Bool := decide (Config.MAX_PAYLOAD < payload.length)

/-- `ACC_CAP - ACC_LEN` limits a count; an unbounded accumulator does not (40_codec_ops.md R124). -/
def limitToRoom (cap : Option Nat) (held n : Nat) : Nat :=
  match cap with
  | none => n
  | some c => min n (c - held)

/-- The number of bytes FILL pulls: `min(max, T.avail(), ACC_CAP - ACC_LEN)` (40_codec_ops.md R124). -/
def State.pullCount (s : State) (max : Nat) : Nat :=
  limitToRoom s.params.accCap s.acc.length (min max s.tq.length)

/-- `sat(v) = min(v, 2^TIMER_W - 1)` (41_correlator_ops.md R155). -/
def State.sat (s : State) (v : Nat) : Nat := min v (2 ^ s.params.timerW - 1)

end Sys2Proof.Machine
end

