-- ==== Sys2Proof/Machine/Codec.lean ====
section
/-! DEFINITION. Decode (40_codec_ops.md R114) and its repetition over a desynchronised prefix (R135,
41_correlator_ops.md R156 step A3). -/

namespace Sys2Proof.Machine

/-- Steps 4 and 5 of Decode: the verdict on a whole frame (40_codec_ops.md R114). -/
def judge (strict : Bool) (f : WireFrame) : Verdict :=
  if f.ckOk = false ∧ strict = true then
    .checksumMismatch (frameLength f.payload) (frameChecksum f.addr f.cmd f.payload) f.ck
  else
    .frame { addr := f.addr, plen := lengthByte f.payload, cmd := f.cmd, payload := f.payload, ck := f.ck,
             ckOk := f.ckOk, consumed := frameLength f.payload }

/-- `Decode(buf, strict)` (40_codec_ops.md R114): steps 1 to 3 are `readFrame`, steps 4 and 5 `judge`. -/
def decodeBuffer (buf : Bytes) (strict : Bool) : Verdict :=
  match readFrame buf with
  | .error (.noSync k) => .desynchronized k
  | .error _ => .incomplete
  | .ok f => judge strict f

/-- At most `fuel` rounds of "Desynchronized(k): drop k and decode again" (40_codec_ops.md R135). -/
def resyncRounds (strict : Bool) : Nat → Bytes → Bytes
  | 0, buf => buf
  | fuel + 1, buf =>
      match decodeBuffer buf strict with
      | .desynchronized k => resyncRounds strict fuel (buf.drop k)
      | _ => buf

/-- What is left when the loop ends: every round removes a byte, so as many rounds as there are bytes are enough
(40_codec_ops.md R135). Log 21. -/
def resync (buf : Bytes) (strict : Bool) : Bytes := resyncRounds strict buf.length buf

end Sys2Proof.Machine
end

