-- ==== Sys2Proof/Machine/Ops.lean ====
section
/-! DEFINITION. The named writes of the state, and the operations the instructions share: the transport, the
accumulator, the answers, the exchange (20_memory.md, 40_codec_ops.md, 41_correlator_ops.md). -/

namespace Sys2Proof.Machine

/-! ## Named writes -/

def State.setAcc (s : State) (v : Bytes) : State := { s with acc := v }
def State.setCfg (s : State) (v : Byte) : State := { s with cfg := v }
def State.setXState (s : State) (v : XState) : State := { s with xState := v }
def State.setElapsed (s : State) (v : Nat) : State := { s with xElapsed := v }
def State.setTimeout (s : State) (v : Nat) : State := { s with xTimeout := v }
def State.setPollcnt (s : State) (v : Nat) : State := { s with xPollcnt := v }
def State.setRes (s : State) (v : XRes) : State := { s with xRes := v }
def State.setTq (s : State) (v : Bytes) : State := { s with tq := v }
def State.setOpen (s : State) (v : Bool) : State := { s with tOpen := v }
def State.setTxlog (s : State) (v : Bytes) : State := { s with txlog := v }
/-- End a step with this answer to the host (00_scope.md R12 "return"). -/
def State.respond (s : State) (v : Response) : State := { s with resp := v }
def State.setInputs (s : State) (v : List Input) : State := { s with inputs := v }

/-! ## Environment and transport -/

/-- `Arrive(bytes)`: the transport has received bytes (20_memory.md R57). -/
def arriveOp (s : State) (bytes : Bytes) : State := (s.setTq (s.tq ++ bytes)).respond .nothing

/-- `Close` (20_memory.md R57). -/
def closeOp (s : State) : State := (s.setOpen false).respond .nothing

/-- `Open` (20_memory.md R57). -/
def openOp (s : State) : State := (s.setOpen true).respond .nothing

/-- `ACC <- ACC ++ T.read(n)` for `n <= T.avail()` (20_memory.md R54, 40_codec_ops.md R124). -/
def pullOp (s : State) (n : Nat) : State := (s.setAcc (s.acc ++ s.tq.take n)).setTq (s.tq.drop n)

/-- `T.write(bytes)` (20_memory.md R55). -/
def writeOp (s : State) (bytes : Bytes) : State := s.setTxlog (s.txlog ++ bytes)

/-- `ACC <- drop(ACC, n)` (40_codec_ops.md R128). -/
def dropOp (s : State) (n : Nat) : State := s.setAcc (s.acc.drop n)

/-! ## Host operations -/

/-- Refuse with a status; nothing else changes (60_exceptions.md R180). -/
def refuse (s : State) (st : Status) : State := s.respond (.status st)

/-- SEND (40_codec_ops.md R122). -/
def sendOp (cmd : Byte) (payload : Bytes) (s : State) : State :=
  if s.busy then refuse s .busy
  else if payloadTooLong payload then refuse s .payloadTooLong
  else if s.tOpen = false then refuse s .transportUnavailable
  else (writeOp s (encodeFrame cmd payload)).respond (.status .ok)

/-- FILL (40_codec_ops.md R124). -/
def fillOp (max : Nat) (s : State) : State :=
  if s.busy then refuse s .busy
  else if s.tOpen = false then refuse s .transportUnavailable
  else (pullOp s (s.pullCount max)).respond (.filled (s.pullCount max))

/-- DROP (40_codec_ops.md R128). -/
def dropHostOp (n : Nat) (s : State) : State :=
  if s.busy then refuse s .busy
  else if s.acc.length < n then refuse s .badDrop
  else (dropOp s n).respond (.status .ok)

/-- FLUSH (40_codec_ops.md R130). -/
def flushOp (s : State) : State :=
  if s.busy then refuse s .busy else (s.setAcc []).respond (.status .ok)

/-- CFGWR (40_codec_ops.md R132). -/
def cfgwrOp (value : Byte) (s : State) : State :=
  if s.busy then refuse s .busy else (s.setCfg (cfgOf value)).respond (.status .ok)

/-- The STAT record; without a correlator its fields read as 0, the kind as NONE (10_state.md R28). -/
def State.statRecord (s : State) : StatRecord :=
  if s.params.hasCorr then
    { busy := s.busy, accLen := s.acc.length, strict := s.strict, xresKind := s.xRes.kind,
      elapsed := s.xElapsed, timeout := s.xTimeout, pollcnt := s.xPollcnt }
  else
    { busy := false, accLen := s.acc.length, strict := s.strict, xresKind := .none,
      elapsed := 0, timeout := 0, pollcnt := 0 }

/-- A reserved operation code: BadOp, nothing changes (30_encoding.md R96). -/
def badOp (s : State) : State := refuse s .badOp

/-! ## A frame at the front of the accumulator -/

/-- RECV's last round on a whole frame (40_codec_ops.md R135): the verdict of Decode (R114), and its bytes dropped
with the checks of DROP (R128). Log 6, log 13. -/
def receiveOp (f : WireFrame) (s : State) : State :=
  if s.busy then refuse s .busy
  else if s.acc.length < frameLength f.payload then refuse s .badDrop
  else (dropOp s (frameLength f.payload)).respond (.verdict (judge s.strict f))

/-! ## The exchange -/

/-- XCHG, once accepted (41_correlator_ops.md R152). -/
def startExchange (cmd : Byte) (payload : Bytes) (timeout : Nat) (s : State) : State :=
  ((((((writeOp (s.setAcc []) (encodeFrame cmd payload)).setElapsed 0).setTimeout timeout).setPollcnt 0).setRes
    (XRes.bare .none)).setXState .busy)

/-- XCHG (41_correlator_ops.md R152, order of refusals 60_exceptions.md R194); without a correlator its code is
reserved (30_encoding.md R95). -/
def xchgOp (cmd : Byte) (payload : Bytes) (timeout : Nat) (s : State) : State :=
  if s.params.hasCorr = false then badOp s
  else if s.busy then refuse s .busy
  else if payloadTooLong payload then refuse s .payloadTooLong
  else if s.tOpen = false then refuse s .transportUnavailable
  else (startExchange cmd payload timeout s).respond (.status .ok)

/-- A frame is written by SEND or by XCHG (opcode table FRAME.TX, 40_codec_ops.md R112). Log 7. -/
def transmitOp (cmd : Byte) (payload : Bytes) (via : Via) (s : State) : State :=
  match via with
  | .send => sendOp cmd payload s
  | .exchange timeout => xchgOp cmd payload timeout s

/-- The end of an exchange: the result is written and the correlator goes idle (60_exceptions.md R190,
41_correlator_ops.md R157). There is no return from it (60_exceptions.md R191). -/
def endExchange (res : XRes) (s : State) : State := (s.setRes res).setXState .idle

/-- The result of a delivered frame (41_correlator_ops.md R156 step A4). -/
def deliveredRes (f : FrameVerdict) : XRes :=
  { kind := .frame, addr := f.addr, plen := f.plen, cmd := f.cmd, payload := f.payload, ck := f.ck,
    ckOk := f.ckOk, expected := frameChecksum f.addr f.cmd f.payload }

/-- The result of a rejected frame, its fields read from the accumulator (41_correlator_ops.md R156 step A4). -/
def rejectedRes (acc : Bytes) (expected got : Byte) : XRes :=
  { kind := .cksum, addr := accByte acc 1, plen := accByte acc 2, cmd := accByte acc 3,
    payload := (acc.drop 4).take (accByte acc 2).toNat, ck := got, ckOk := false, expected := expected }

/-- Steps A2 and A3: pull what fits, then drop desynchronised prefixes (41_correlator_ops.md R156). -/
def pollOp (s : State) : State :=
  let pulled := pullOp s (s.pullCount s.tq.length)
  pulled.setAcc (resync pulled.acc s.strict)

/-- Step A4, on the verdict A3 ended with (41_correlator_ops.md R156). That verdict is never Desynchronized. -/
def concludeOp (v : Verdict) (s : State) : State :=
  match v with
  | .frame f => endExchange (deliveredRes f) (dropOp s f.consumed)
  | .checksumMismatch span expected got => endExchange (rejectedRes s.acc expected got) (dropOp s span)
  | .incomplete =>
      if s.xTimeout < s.xElapsed then endExchange (XRes.bare .timeout) s
      else s.setPollcnt (s.params.pollInterval - 1)
  | .desynchronized _ => s

/-- `X.ELAPSED <- sat(X.ELAPSED + 1)` (41_correlator_ops.md R155, R156 step A5). -/
def countTick (s : State) : State := s.setElapsed (s.sat (s.xElapsed + 1))

/-- An attempt (41_correlator_ops.md R156). -/
def attemptOp (s : State) : State :=
  if s.tOpen = false then countTick (endExchange (XRes.bare .transport) s)
  else countTick (concludeOp (decodeBuffer (pollOp s).acc s.strict) (pollOp s))

/-- TICK: idle (41_correlator_ops.md R154), waiting (R155), attempt (R156). Without a correlator there is nothing
for it to act on (00_scope.md R2, log 11). -/
def tickOp (s : State) : State :=
  if s.busy = false then s
  else if 0 < s.xPollcnt then countTick (s.setPollcnt (s.xPollcnt - 1))
  else attemptOp s

/-- RESET: every state element of the block to its reset value, nothing of the environment
(70_reset_and_hazards.md R210, 10_state.md R40, R41). -/
def resetOp (s : State) : State :=
  ((((((s.setAcc []).setCfg 0x01).setXState .idle).setElapsed 0).setTimeout 0).setPollcnt 0).setRes (XRes.bare .none)

end Sys2Proof.Machine
end

