-- ==== Sys2Proof/Machine/Correlator.lean ====
section
/-! DEFINITION. The correlator's operations and the two events (41_correlator_ops.md, 70_reset_and_hazards.md R210). -/

namespace Sys2Proof.Machine

/-- XCHG (41_correlator_ops.md R152). -/
def execXchg (cmd : Byte) (payload : Bytes) (timeout : Nat) (s : State) : Host.Outcome State Fault Refusal :=
  .next (xchgOp cmd payload timeout s)

/-- XRES: the result record; nothing changes (41_correlator_ops.md R160). Without a correlator its code is
reserved (30_encoding.md R95). -/
def execXres (s : State) : Host.Outcome State Fault Refusal :=
  .next (if s.params.hasCorr then s.respond (.xres s.xRes) else badOp s)

/-- TICK returns nothing (41_correlator_ops.md R154 to R156). -/
def execTick (s : State) : Host.Outcome State Fault Refusal := .next ((tickOp s).respond .nothing)

/-- RESET returns nothing (70_reset_and_hazards.md R210). -/
def execReset (s : State) : Host.Outcome State Fault Refusal := .next ((resetOp s).respond .nothing)

end Sys2Proof.Machine
end

