-- ==== Sys2Proof/Machine/HostOps.lean ====
section
/-! DEFINITION. The codec's host operations and the reserved codes (40_codec_ops.md R121 to R134,
30_encoding.md R96). -/

namespace Sys2Proof.Machine

/-- STAT: the record of 10_state.md R28; nothing changes (40_codec_ops.md R134). -/
def execStat (s : State) : Host.Outcome State Fault Refusal := .next (s.respond (.stat s.statRecord))

/-- SEND (40_codec_ops.md R122). -/
def execSend (cmd : Byte) (payload : Bytes) (s : State) : Host.Outcome State Fault Refusal :=
  .next (sendOp cmd payload s)

/-- FILL (40_codec_ops.md R124). -/
def execFill (max : Nat) (s : State) : Host.Outcome State Fault Refusal := .next (fillOp max s)

/-- DECODE: the verdict on the accumulator; nothing changes (40_codec_ops.md R125). -/
def execDecode (s : State) : Host.Outcome State Fault Refusal :=
  .next (s.respond (.verdict (decodeBuffer s.acc s.strict)))

/-- DROP (40_codec_ops.md R128). -/
def execDrop (n : Nat) (s : State) : Host.Outcome State Fault Refusal := .next (dropHostOp n s)

/-- FLUSH (40_codec_ops.md R130). -/
def execFlush (s : State) : Host.Outcome State Fault Refusal := .next (flushOp s)

/-- CFGWR (40_codec_ops.md R132). -/
def execCfgwr (value : Byte) (s : State) : Host.Outcome State Fault Refusal := .next (cfgwrOp value s)

/-- Reserved code 0x7 (30_encoding.md R96). -/
def execReserved7 (s : State) : Host.Outcome State Fault Refusal := .next (badOp s)

/-- Reserved code 0xA (30_encoding.md R96). -/
def execReservedA (s : State) : Host.Outcome State Fault Refusal := .next (badOp s)

/-- Reserved code 0xB (30_encoding.md R96). -/
def execReservedB (s : State) : Host.Outcome State Fault Refusal := .next (badOp s)

/-- Reserved code 0xC (30_encoding.md R96). -/
def execReservedC (s : State) : Host.Outcome State Fault Refusal := .next (badOp s)

/-- Reserved code 0xD (30_encoding.md R96). -/
def execReservedD (s : State) : Host.Outcome State Fault Refusal := .next (badOp s)

/-- Reserved code 0xE (30_encoding.md R96). -/
def execReservedE (s : State) : Host.Outcome State Fault Refusal := .next (badOp s)

/-- Reserved code 0xF (30_encoding.md R96). -/
def execReservedF (s : State) : Host.Outcome State Fault Refusal := .next (badOp s)

end Sys2Proof.Machine
end

