-- ==== Sys2Proof/Machine/Received.lean ====
section
/-! DEFINITION. The received frames: FRAME, OK, block-record, arrow-record, info. The block treats every command
byte alike (30_encoding.md R92): each is judged and removed as 40_codec_ops.md R114 and R135 say. Log 6. -/

namespace Sys2Proof.Machine

/-- FRAME: any received frame (40_codec_ops.md R114). -/
def execFrame (addr cmd : Byte) (payload : Bytes) (ck : Byte) (s : State) : Host.Outcome State Fault Refusal :=
  .next (receiveOp { addr := addr, cmd := cmd, payload := payload, ck := ck } s)

/-- OK: the response with command byte 0x2E, any address and payload (30_encoding.md R86, R90). -/
def execOk (addr : Byte) (payload : Bytes) (ck : Byte) (s : State) : Host.Outcome State Fault Refusal :=
  .next (receiveOp { addr := addr, cmd := Config.CC_OK, payload := payload, ck := ck } s)

/-- block-record: its payload is delivered whole, not interpreted (30_encoding.md R90, 20_memory.md R61). -/
def execBlockRecord (addr cmd : Byte) (payload : Bytes) (ck : Byte) (s : State) :
    Host.Outcome State Fault Refusal :=
  .next (receiveOp { addr := addr, cmd := cmd, payload := payload, ck := ck } s)

/-- arrow-record: its payload is delivered whole, not interpreted (30_encoding.md R90, 20_memory.md R61). -/
def execArrowRecord (addr cmd : Byte) (payload : Bytes) (ck : Byte) (s : State) :
    Host.Outcome State Fault Refusal :=
  .next (receiveOp { addr := addr, cmd := cmd, payload := payload, ck := ck } s)

/-- info: its payload is not in the source and is delivered whole (30_encoding.md R90). -/
def execInfo (addr cmd : Byte) (payload : Bytes) (ck : Byte) (s : State) : Host.Outcome State Fault Refusal :=
  .next (receiveOp { addr := addr, cmd := cmd, payload := payload, ck := ck } s)

end Sys2Proof.Machine
end

