-- ==== Sys2Proof/Machine/Sent.lean ====
section
/-! DEFINITION. The frames the block sends: FRAME.TX and the six requests (30_encoding.md R90), each written by
SEND or by XCHG. Log 7. -/

namespace Sys2Proof.Machine

/-- FRAME.TX: any frame the block sends (40_codec_ops.md R112). -/
def execFrameTx (cmd : Byte) (payload : Bytes) (via : Via) (s : State) : Host.Outcome State Fault Refusal :=
  .next (transmitOp cmd payload via s)

/-- knock: command byte 0x2C, empty payload (30_encoding.md R90, 41_correlator_ops.md R161). -/
def execKnock (via : Via) (s : State) : Host.Outcome State Fault Refusal :=
  .next (transmitOp Config.CC_KNOCK [] via s)

/-- algorithm-select: the form of its payload is not in the source, so any payload (30_encoding.md R90). -/
def execAlgorithmSelect (cmd : Byte) (payload : Bytes) (via : Via) (s : State) :
    Host.Outcome State Fault Refusal :=
  .next (transmitOp cmd payload via s)

/-- blocks-request: empty payload (30_encoding.md R90, 41_correlator_ops.md R161). -/
def execBlocksRequest (cmd : Byte) (via : Via) (s : State) : Host.Outcome State Fault Refusal :=
  .next (transmitOp cmd [] via s)

/-- arrows-request: empty payload (30_encoding.md R90, 41_correlator_ops.md R161). -/
def execArrowsRequest (cmd : Byte) (via : Via) (s : State) : Host.Outcome State Fault Refusal :=
  .next (transmitOp cmd [] via s)

/-- learn: the id in two bytes, least significant first (30_encoding.md R90, R91). -/
def execLearn (cmd : Byte) (id : BitVec 16) (via : Via) (s : State) : Host.Outcome State Fault Refusal :=
  .next (transmitOp cmd (learnPayload id) via s)

/-- forget: empty payload (30_encoding.md R90, 41_correlator_ops.md R161). -/
def execForget (cmd : Byte) (via : Via) (s : State) : Host.Outcome State Fault Refusal :=
  .next (transmitOp cmd [] via s)

end Sys2Proof.Machine
end

