-- ==== Sys2Proof/Machine/Dispatch.lean ====
section
/-! DEFINITION. One arm per instruction. -/

namespace Sys2Proof.Machine

def exec (i : Instr) (s : State) : Host.Outcome State Fault Refusal :=
  match i with
  | .frame addr cmd payload ck => Sys2Proof.Machine.execFrame addr cmd payload ck s
  | .ok addr payload ck => Sys2Proof.Machine.execOk addr payload ck s
  | .blockRecord addr cmd payload ck => Sys2Proof.Machine.execBlockRecord addr cmd payload ck s
  | .arrowRecord addr cmd payload ck => Sys2Proof.Machine.execArrowRecord addr cmd payload ck s
  | .info addr cmd payload ck => Sys2Proof.Machine.execInfo addr cmd payload ck s
  | .frameTx cmd payload via => Sys2Proof.Machine.execFrameTx cmd payload via s
  | .knock via => Sys2Proof.Machine.execKnock via s
  | .algorithmSelect cmd payload via => Sys2Proof.Machine.execAlgorithmSelect cmd payload via s
  | .blocksRequest cmd via => Sys2Proof.Machine.execBlocksRequest cmd via s
  | .arrowsRequest cmd via => Sys2Proof.Machine.execArrowsRequest cmd via s
  | .learn cmd id via => Sys2Proof.Machine.execLearn cmd id via s
  | .forget cmd via => Sys2Proof.Machine.execForget cmd via s
  | .stat => Sys2Proof.Machine.execStat s
  | .send cmd payload => Sys2Proof.Machine.execSend cmd payload s
  | .fill max => Sys2Proof.Machine.execFill max s
  | .decode => Sys2Proof.Machine.execDecode s
  | .drop n => Sys2Proof.Machine.execDrop n s
  | .flush => Sys2Proof.Machine.execFlush s
  | .cfgwr value => Sys2Proof.Machine.execCfgwr value s
  | .xchg cmd payload timeout => Sys2Proof.Machine.execXchg cmd payload timeout s
  | .xres => Sys2Proof.Machine.execXres s
  | .reserved7 => Sys2Proof.Machine.execReserved7 s
  | .reservedA => Sys2Proof.Machine.execReservedA s
  | .reservedB => Sys2Proof.Machine.execReservedB s
  | .reservedC => Sys2Proof.Machine.execReservedC s
  | .reservedD => Sys2Proof.Machine.execReservedD s
  | .reservedE => Sys2Proof.Machine.execReservedE s
  | .reservedF => Sys2Proof.Machine.execReservedF s
  | .tick => Sys2Proof.Machine.execTick s
  | .reset => Sys2Proof.Machine.execReset s

end Sys2Proof.Machine
end

