-- ==== Sys2Proof/Machine/Fetch.lean ====
section
/-! DEFINITION. From the next input of the agents to the code the decoder reads (00_scope.md R5, 30_encoding.md R98,
40_codec_ops.md R135, 41_correlator_ops.md R161). Log 1, log 14. -/

namespace Sys2Proof.Machine

/-- What the next input comes to: a code to decode and run on a state, or a step that is done without one. -/
inductive Fetched where
  | run (code : Code) (s : State)
  | done (s : State)
  deriving DecidableEq, Repr

/-- RECV up to its last round (40_codec_ops.md R135): drop desynchronised prefixes; an Incomplete verdict ends it,
a whole frame is the instruction to run. It is made of DECODE and DROP: where a DROP is due while an exchange is
in flight the answer is Busy and nothing changes (40_codec_ops.md R121, log 13). -/
def fetchReceived (s : State) : Fetched :=
  if decodeBuffer s.acc s.strict = .incomplete then .done (s.respond (.verdict .incomplete))
  else if s.busy then .done (refuse s .busy)
  else
    let held := s.setAcc (resync s.acc s.strict)
    if decodeBuffer held.acc held.strict = .incomplete then .done (held.respond (.verdict .incomplete))
    else .run (.received held.acc) held

/-- AWAIT: one TICK a step until the exchange is over, then XRES (41_correlator_ops.md R161). `s` still has AWAIT
as its next input, `popped` no longer. -/
def fetchAwait (s popped : State) : Fetched :=
  if s.busy then .run .tick s else .run (.port 0x9 HostArgs.zero) popped

/-- The next input, if an agent takes a step. -/
def fetch (s : State) : Option Fetched :=
  match s.inputs with
  | [] => none
  | input :: rest =>
      let popped := s.setInputs rest
      match input with
      | .host op args => some (.run (.port op args) popped)
      | .request bytes via => some (.run (.sent bytes via) popped)
      | .recv => some (fetchReceived popped)
      | .command c timeout => some (.run (expandPseudo s.params.vocab timeout c) popped)
      | .await => some (fetchAwait s popped)
      | .tick => some (.run .tick popped)
      | .reset => some (.run .reset popped)
      | .arrive bytes => some (.done (arriveOp popped bytes))
      | .closeLink => some (.done (closeOp popped))
      | .openLink => some (.done (openOp popped))

/-- The state in which the next step runs the instruction with this code. -/
def placeCode (s : State) (c : Code) : State :=
  match c with
  | .port op args => s.setInputs (.host op args :: s.inputs)
  | .sent bytes via => s.setInputs (.request bytes via :: s.inputs)
  | .received bytes => (s.setAcc bytes).setInputs (.recv :: s.inputs)
  | .tick => s.setInputs (.tick :: s.inputs)
  | .reset => s.setInputs (.reset :: s.inputs)

end Sys2Proof.Machine
end

