-- ==== Sys2Proof/Machine/Step.lean ====
section
/-! DEFINITION. One step of the machine (00_scope.md R5). -/

namespace Sys2Proof.Machine

/-- The next input is taken, decoded and run. Without one nothing happens: the block takes no step of its own
accord (00_scope.md R5, log 1). -/
def step (s : State) : Host.Outcome State Fault Refusal :=
  match fetch s with
  | none => .next s
  | some (.done s') => .next s'
  | some (.run code s') =>
      match decode s'.params code with
      | .ok i => exec i s'
      | .error why => .refused (.notExpressible why)

/-- `s` with the table word `w` placed where the next step finds it: on the host port, as a frame to be sent, or
as a frame at the front of the accumulator that the host RECVs. Log 8, log 9, log 10. -/
def State.withFetchWord (s : State) (nbits w : Nat) : State := placeCode s (tableCode nbits w)

end Sys2Proof.Machine
end

