-- ==== Sys2Proof/WellFormed.lean ====
section
/-! DEFINITION. Which instructions the encodings can carry, for an instance with parameters `p`
(30_encoding.md R80, R88, R90, R95). -/

namespace Sys2Proof

/-- Well-formed: the payload fits, the timeout fits, and the row is the first one, in the order the decoder
tries them, that the vocabulary gives the command byte. SEND, XCHG and DROP carry any operand: the machine
refuses a payload over 255 bytes and a count over what is held itself (40_codec_ops.md R122, R128). -/
def Instr.wf (p : Params) : Instr → Bool
  | .frame _ cmd payload _ =>
      payloadFits payload && p.vocab.unnamed cmd payload [.ok, .blockRecord, .arrowRecord, .info]
  | .ok _ payload _ => payloadFits payload
  | .blockRecord _ cmd payload _ =>
      payloadFits payload && p.vocab.names cmd payload .blockRecord && p.vocab.unnamed cmd payload [.ok]
  | .arrowRecord _ cmd payload _ =>
      payloadFits payload && p.vocab.names cmd payload .arrowRecord &&
        p.vocab.unnamed cmd payload [.ok, .blockRecord]
  | .info _ cmd payload _ =>
      payloadFits payload && p.vocab.names cmd payload .info &&
        p.vocab.unnamed cmd payload [.ok, .blockRecord, .arrowRecord]
  | .frameTx cmd payload via =>
      payloadFits payload && via.fits p && p.vocab.unnamed cmd payload
        [.knock, .algorithmSelect, .blocksRequest, .arrowsRequest, .learn, .forget]
  | .knock via => via.fits p
  | .algorithmSelect cmd payload via =>
      payloadFits payload && via.fits p && p.vocab.names cmd payload .algorithmSelect &&
        p.vocab.unnamed cmd payload [.knock]
  | .blocksRequest cmd via =>
      via.fits p && p.vocab.names cmd [] .blocksRequest && p.vocab.unnamed cmd [] [.knock, .algorithmSelect]
  | .arrowsRequest cmd via =>
      via.fits p && p.vocab.names cmd [] .arrowsRequest &&
        p.vocab.unnamed cmd [] [.knock, .algorithmSelect, .blocksRequest]
  | .learn cmd _ via =>
      via.fits p && p.vocab.names cmd [0, 0] .learn && p.vocab.unnamed cmd [0, 0] [.algorithmSelect]
  | .forget cmd via =>
      via.fits p && p.vocab.names cmd [] .forget &&
        p.vocab.unnamed cmd [] [.knock, .algorithmSelect, .blocksRequest, .arrowsRequest]
  | .xchg _ _ timeout => timeoutFits p timeout
  | .stat | .send _ _ | .fill _ | .decode | .drop _ | .flush | .cfgwr _ | .xres
  | .reserved7 | .reservedA | .reservedB | .reservedC | .reservedD | .reservedE | .reservedF
  | .tick | .reset => true

end Sys2Proof
end

