-- ==== Sys2Proof/Safety.lean ====
section
/-! DEFINITION. What a good state is, what a run is, and the words the statements use (00_scope.md R7,
10_state.md). -/

namespace Sys2Proof.Machine

/-- `ACC_LEN <= ACC_CAP` (10_state.md R20). -/
def State.accFits (s : State) : Bool :=
  match s.params.accCap with
  | none => true
  | some cap => decide (s.acc.length ≤ cap)

/-- The timer registers fit `TIMER_W` bits, and the poll counter counts down from `POLL_INTERVAL - 1`
(10_state.md R31, R32, R33). -/
def State.timersFit (s : State) : Bool :=
  decide (s.xElapsed < 2 ^ s.params.timerW) && decide (s.xTimeout < 2 ^ s.params.timerW) &&
    decide (s.xPollcnt < s.params.pollInterval)

/-- The result record is one of 10_state.md R34: bare for NONE, TIMEOUT and TRANSPORT; for FRAME and CKSUM the
payload has `PLEN` bytes, EXPECTED is the frame's checksum, CK_OK says whether CK equals it, and CKSUM has
`CK_OK = 0`. -/
def XRes.wf (r : XRes) : Bool :=
  match r.kind with
  | .frame =>
      decide (r.payload.length = r.plen.toNat) && decide (r.expected = frameChecksum r.addr r.cmd r.payload) &&
        (r.ckOk == (r.expected == r.ck))
  | .cksum =>
      decide (r.payload.length = r.plen.toNat) && decide (r.expected = frameChecksum r.addr r.cmd r.payload) &&
        (r.expected != r.ck) && !r.ckOk
  | kind => r == XRes.bare kind

/-- The correlator's state of a block built without one: as reset leaves it (00_scope.md R2, log 11). -/
def State.correlatorAtRest (s : State) : Bool :=
  s.xState == .idle && s.xElapsed == 0 && s.xTimeout == 0 && s.xPollcnt == 0 && s.xRes == XRes.bare .none

/-- A good state: legal parameters (00_scope.md R9), the accumulator within its capacity, the reserved bits of
`CFG` zero (10_state.md R22), the timers within their widths, the result record well formed and NONE while an
exchange is in flight (R34, R35), and no correlator state where there is no correlator. -/
def State.wf (s : State) : Bool :=
  s.params.legal && s.accFits && (s.cfg &&& 0xFE#8 == 0) && s.timersFit && s.xRes.wf &&
    (s.xState == .idle || s.xRes.kind == .none) && (s.params.hasCorr || s.correlatorAtRest)

/-- Quiescent: no exchange is in flight (00_scope.md R7). -/
def State.quiescent (s : State) : Bool := !s.busy

/-- The states of the runs (00_scope.md R7): from the reset state, with any parameters, any transport and any
sequence of inputs placed, by steps that go on. -/
inductive Reachable : State → Prop
  | start (params : Params) (tq txlog : Bytes) (tOpen : Bool) (inputs : List Input) (legal : params.legal = true) :
      Reachable { State.reset with params := params, tq := tq, txlog := txlog, tOpen := tOpen, inputs := inputs }
  | next (s t : State) (reached : Reachable s) (stepped : step s = .next t) : Reachable t

/-- A safe run: no state it reaches faults, and every state it reaches is good. -/
def SafeRun (s : State) : Prop :=
  ∀ k t, Host.Core.run Sys2Proof.core k s = .next t → t.wf = true ∧ ∀ f, step t ≠ .fault f

end Sys2Proof.Machine
end

