-- ==== Sys2Proof/Certificates/Slice0/Obligations.lean ====
section
/-! DEFINITION. The statements about the machine, from the numbered rules of the spec. -/

open Sys2Proof Sys2Proof.Machine

/-! ## Encoding -/

/-- Sanity: words written out from spec/opcode_table.json, and frames written out byte by byte from
95_test_vectors.md (V1, V2, V12, V19c) and 30_encoding.md R80, decode to what they stand for. The direction of a
header and the operands of a bare host code are the model's choice (log 8, log 10). -/
def Obligations.WrittenOutWordsDecode : Prop :=
  decodeTableWord 32 0x5511002C = some (.knock .send) ∧
  decodeTableWord 32 0x55110270 = some (.frameTx 0x70 [0, 0] .send) ∧
  decodeTableWord 32 0x5500002E = some (.ok 0 [] 0) ∧
  decodeTableWord 32 0x55220150 = some (.frame 0x22 0x50 [0] 0) ∧
  decodeTableWord 32 0x54110000 = none ∧
  decodeTableWord 8 0x3 = some .decode ∧
  decodeTableWord 8 0x9 = some .xres ∧
  decodeTableWord 8 0xF = some .reservedF ∧
  decode Config.exampleParams (.received [0x55, 0x11, 0x00, 0x2E, 0x3F]) = .ok (.ok 0x11 [] 0x3F) ∧
  decode Config.exampleParams (.received [0x55, 0x22, 0x00, 0x9B, 0x50]) = .ok (.frame 0x22 0x9B [] 0x50) ∧
  decode { Config.exampleParams with vocab := { Vocabulary.ofSource with learn := some 0x70 } }
      (.sent [0x55, 0x11, 0x02, 0x70, 0x02, 0x01] .send) = .ok (.learn 0x70 0x0102 .send)

/-- Decode and encode agree, for every well-formed instruction of every family and any parameters. -/
def Obligations.DecodeInvertsEncode : Prop :=
  ∀ (p : Params) (i : Instr), i.wf p = true → decode p (encode i) = .ok i

/-- What follows a received frame in the buffer does not change the instruction it decodes to
(40_codec_ops.md R114 "It never looks beyond buf[need - 1]"). -/
def Obligations.BytesAfterAReceivedFrameAreNotRead : Prop :=
  ∀ (p : Params) (i : Instr) (bytes later : Bytes), i.wf p = true → encode i = .received bytes →
    decode p (.received (bytes ++ later)) = .ok i

/-- The sixteen codes of the host port select the operations of 30_encoding.md R95; only XCHG's timeout must fit
its `TIMER_W` bits, and one that does not is rejected by name (log 12). That without a correlator, where its code is
reserved, any timeout fits is the model's choice (log 22). -/
def Obligations.HostCodesSelectTheOperations : Prop :=
  ∀ (p : Params) (a : HostArgs),
    decode p (.port 0x0 a) = .ok .stat ∧
    decode p (.port 0x1 a) = .ok (.send a.cmd a.payload) ∧
    decode p (.port 0x2 a) = .ok (.fill a.count) ∧
    decode p (.port 0x3 a) = .ok .decode ∧
    decode p (.port 0x4 a) = .ok (.drop a.count) ∧
    decode p (.port 0x5 a) = .ok .flush ∧
    decode p (.port 0x6 a) = .ok (.cfgwr a.value) ∧
    decode p (.port 0x7 a) = .ok .reserved7 ∧
    decode p (.port 0x8 a) =
      (if p.hasCorr = false ∨ a.timeout < 2 ^ p.timerW then .ok (.xchg a.cmd a.payload a.timeout) else .error .timeoutTooWide) ∧
    decode p (.port 0x9 a) = .ok .xres ∧
    decode p (.port 0xA a) = .ok .reservedA ∧
    decode p (.port 0xB a) = .ok .reservedB ∧
    decode p (.port 0xC a) = .ok .reservedC ∧
    decode p (.port 0xD a) = .ok .reservedD ∧
    decode p (.port 0xE a) = .ok .reservedE ∧
    decode p (.port 0xF a) = .ok .reservedF

/-! ## The step -/

/-- A step takes the next input and runs the instruction it decodes to, in the state without that input; RECV runs
the frame that stands at the front of the accumulator, or behind the prefix that resynchronising drops. The queue of inputs is the model's (log 1, log 6). -/
def Obligations.StepRunsTheDecodedInstruction : Prop :=
  ∀ (s : State) (rest : List Input) (i : Instr),
    (∀ op args, s.inputs = .host op args :: rest → decode s.params (.port op args) = .ok i →
      step s = exec i { s with inputs := rest }) ∧
    (∀ bytes via, s.inputs = .request bytes via :: rest → decode s.params (.sent bytes via) = .ok i →
      step s = exec i { s with inputs := rest }) ∧
    (s.inputs = .recv :: rest → s.busy = false → decode s.params (.received s.acc) = .ok i →
      step s = exec i { s with inputs := rest }) ∧
    (s.inputs = .recv :: rest → s.busy = false → decode s.params (.received (resync s.acc s.strict)) = .ok i →
      step s = exec i { s with acc := resync s.acc s.strict, inputs := rest }) ∧
    (s.inputs = .tick :: rest → step s = exec .tick { s with inputs := rest }) ∧
    (s.inputs = .reset :: rest → step s = exec .reset { s with inputs := rest })

/-- KNOCK, LEARN, FORGET, BLOCKS and ARROWS are XCHG with fixed operands (41_correlator_ops.md R161); AWAIT is one
TICK a step while an exchange is in flight, then XRES. That AWAIT takes one step for each TICK and that a code the
instance was not given is a free byte are the model's choices (log 4, log 14), and so is that without a correlator any
timeout is taken (log 22). -/
def Obligations.PseudoOperationsExpand : Prop :=
  ∀ (s : State) (rest : List Input) (timeout : Nat),
    (s.params.hasCorr = false ∨ timeout < 2 ^ s.params.timerW) →
    (s.inputs = .command .knock timeout :: rest →
      step s = exec (.xchg 0x2C [] timeout) { s with inputs := rest }) ∧
    (∀ id : BitVec 16, s.inputs = .command (.learn id) timeout :: rest →
      step s = exec (.xchg (s.params.vocab.code .learn)
        [BitVec.ofNat 8 (id.toNat % 256), BitVec.ofNat 8 (id.toNat / 256)] timeout) { s with inputs := rest }) ∧
    (s.inputs = .command .forget timeout :: rest →
      step s = exec (.xchg (s.params.vocab.code .forget) [] timeout) { s with inputs := rest }) ∧
    (s.inputs = .command .blocks timeout :: rest →
      step s = exec (.xchg (s.params.vocab.code .blocksRequest) [] timeout) { s with inputs := rest }) ∧
    (s.inputs = .command .arrows timeout :: rest →
      step s = exec (.xchg (s.params.vocab.code .arrowsRequest) [] timeout) { s with inputs := rest }) ∧
    (s.inputs = .await :: rest → s.busy = true → step s = exec .tick s) ∧
    (s.inputs = .await :: rest → s.busy = false → step s = exec .xres { s with inputs := rest })

/-- The environment's steps: `Arrive(s)` appends to `TQ`, `Close` and `Open` set `T.open`, and nothing of the block
changes (20_memory.md R57). That the next input is one of them, and that no input means no change, is the model's
choice (log 1). -/
def Obligations.EnvironmentStepsActOnTheTransportOnly : Prop :=
  ∀ (s : State) (rest : List Input),
    (∀ bytes, s.inputs = .arrive bytes :: rest →
      step s = .next { s with tq := s.tq ++ bytes, resp := .nothing, inputs := rest }) ∧
    (s.inputs = .closeLink :: rest → step s = .next { s with tOpen := false, resp := .nothing, inputs := rest }) ∧
    (s.inputs = .openLink :: rest → step s = .next { s with tOpen := true, resp := .nothing, inputs := rest }) ∧
    (s.inputs = [] → step s = .next s)

/-- No instruction stops the machine, and a step never faults: it is refused only where the next input is an
operand no port carries (60_exceptions.md R180). Both refusals are the model's (log 12): a timeout too wide for XCHG,
for a frame sent by it or for a pseudo-operation, on a block with a correlator (log 22), and a frame to send that the
block cannot build. -/
def Obligations.NothingTrapsAndOnlyInexpressibleInputsAreRefused : Prop :=
  (∀ (i : Instr) (s : State), ∃ t, exec i s = .next t) ∧
  ∀ s : State, (∃ t, step s = .next t) ∨
    (step s = .refused (.notExpressible .timeoutTooWide) ∧ s.params.hasCorr = true ∧
      ∃ input rest, s.inputs = input :: rest ∧
        ((∃ a, input = .host 0x8 a ∧ 2 ^ s.params.timerW ≤ a.timeout) ∨
         (∃ bytes timeout, input = .request bytes (.exchange timeout) ∧ 2 ^ s.params.timerW ≤ timeout) ∨
         (∃ c timeout, input = .command c timeout ∧ 2 ^ s.params.timerW ≤ timeout))) ∨
    (step s = .refused (.notExpressible .notSendable) ∧
      ∃ bytes via rest, s.inputs = .request bytes via :: rest ∧
        ∀ cmd payload, payload.length ≤ 255 →
          bytes ≠ [0x55, 0x11, BitVec.ofNat 8 payload.length, cmd] ++ payload)

/-! ## Checksum, Encode, Decode -/

/-- The frame checksum is the integer sum of address, length, command and payload bytes, modulo 256, and the empty
sum is 0 (40_codec_ops.md R110, 30_encoding.md R83). -/
def Obligations.FrameChecksumIsTheSumModulo256 : Prop :=
  (∀ s : Bytes, (checksum s).toNat = (s.map BitVec.toNat).sum % 256) ∧
  checksum [] = 0 ∧
  ∀ (addr cmd : Byte) (payload : Bytes), payload.length ≤ 255 →
    (frameChecksum addr cmd payload).toNat =
      (addr.toNat + payload.length + cmd.toNat + (payload.map BitVec.toNat).sum) % 256

/-- An 8-bit running register that starts at 0 and adds each byte gives the same checksum, in any order
(40_codec_ops.md R111, which the spec marks as derived). -/
def Obligations.ChecksumIsARunningRegisterInAnyOrder : Prop :=
  ∀ s t : Bytes, checksum s = s.foldl (fun register b => register + b) 0 ∧ (s.Perm t → checksum s = checksum t)

/-- `Encode` emits sync, address, length, command, payload, checksum: `5 + len(payload)` bytes
(40_codec_ops.md R112). -/
def Obligations.EncodeEmitsTheFrame : Prop :=
  ∀ (cmd : Byte) (payload : Bytes), payload.length ≤ 255 →
    ∃ ck : Byte,
      encodeFrame cmd payload = [0x55, 0x11, BitVec.ofNat 8 payload.length, cmd] ++ payload ++ [ck] ∧
      ck = checksum ([0x11, BitVec.ofNat 8 payload.length, cmd] ++ payload) ∧
      (encodeFrame cmd payload).length = 5 + payload.length

/-- Decode, step for step (40_codec_ops.md R114, the drop offset R115): too short; no sync byte; too short for the
declared length; checksum; frame. Step 2 searches all `n` bytes, as the rule writes it; that it does so past the 260
bytes of 20_memory.md R63 too is the model's choice (log 23). -/
def Obligations.DecodeFollowsItsFiveSteps : Prop :=
  ∀ (buf : Bytes) (strict : Bool),
    let n := buf.length
    let len := (buf.getD 2 0).toNat
    let payload := (buf.drop 4).take len
    let e := checksum ([buf.getD 1 0, buf.getD 2 0, buf.getD 3 0] ++ payload)
    let ck := buf.getD (4 + len) 0
    (n < 5 → decodeBuffer buf strict = .incomplete) ∧
    (5 ≤ n → buf.getD 0 0 ≠ 0x55 →
      ∃ k, decodeBuffer buf strict = .desynchronized k ∧ 1 ≤ k ∧ k ≤ n ∧
        (∀ j, 1 ≤ j → j < k → buf.getD j 0 ≠ 0x55) ∧ (k < n → buf.getD k 0 = 0x55)) ∧
    (5 ≤ n → buf.getD 0 0 = 0x55 → n < 5 + len → decodeBuffer buf strict = .incomplete) ∧
    (5 ≤ n → buf.getD 0 0 = 0x55 → 5 + len ≤ n →
      decodeBuffer buf strict =
        (if e ≠ ck ∧ strict = true then .checksumMismatch (5 + len) e ck
         else .frame { addr := buf.getD 1 0, plen := buf.getD 2 0, cmd := buf.getD 3 0, payload := payload,
                       ck := ck, ckOk := (e == ck), consumed := 5 + len }))

/-- Prefix stability (40_codec_ops.md R118, which the spec marks as derived): later bytes change neither a Frame nor
a ChecksumMismatch nor a Desynchronized that found a sync byte; a Desynchronized that found none stays Desynchronized
and its count only grows. That step 2 looks past 260 bytes is the model's choice (log 23). -/
def Obligations.VerdictsAreStableUnderLaterBytes : Prop :=
  ∀ (buf later : Bytes) (strict : Bool),
    (∀ f, decodeBuffer buf strict = .frame f → decodeBuffer (buf ++ later) strict = .frame f) ∧
    (∀ span e g, decodeBuffer buf strict = .checksumMismatch span e g →
      decodeBuffer (buf ++ later) strict = .checksumMismatch span e g) ∧
    (∀ k, decodeBuffer buf strict = .desynchronized k → k < buf.length →
      decodeBuffer (buf ++ later) strict = .desynchronized k) ∧
    (decodeBuffer buf strict = .desynchronized buf.length →
      ∃ k, decodeBuffer (buf ++ later) strict = .desynchronized k ∧ buf.length ≤ k)

/-- Round trip (40_codec_ops.md R119, which the spec marks as derived): what Encode builds decodes to a Frame with
the same fields, whatever follows it, strict or not; and so does a frame built by hand with any address and the
matching checksum. -/
def Obligations.DecodeOfEncodeIsTheFrame : Prop :=
  ∀ (addr cmd : Byte) (payload later : Bytes) (strict : Bool), payload.length ≤ 255 →
    decodeBuffer (encodeFrame cmd payload ++ later) strict =
      .frame { addr := 0x11, plen := BitVec.ofNat 8 payload.length, cmd := cmd, payload := payload,
               ck := frameChecksum 0x11 cmd payload, ckOk := true, consumed := 5 + payload.length } ∧
    decodeBuffer (wireBytes addr cmd payload (frameChecksum addr cmd payload) ++ later) strict =
      .frame { addr := addr, plen := BitVec.ofNat 8 payload.length, cmd := cmd, payload := payload,
               ck := frameChecksum addr cmd payload, ckOk := true, consumed := 5 + payload.length }

/-- Single-bit errors in strict mode (40_codec_ops.md R120 (a), (b), (c) and the growing length of (d), which the
spec marks as derived): a bit of the sync byte gives Desynchronized; a bit of the address, the command, a payload
byte or the checksum always gives ChecksumMismatch; a length bit from 0 to 1 gives Incomplete. -/
def Obligations.SingleBitErrorsAreDetectedButInTheLength : Prop :=
  ∀ (cmd : Byte) (payload : Bytes) (bit : Nat), payload.length ≤ 255 → bit < 8 →
    let frame := encodeFrame cmd payload
    let damaged := fun j => frame.set j (frame.getD j 0 ^^^ BitVec.ofNat 8 (2 ^ bit))
    (∃ k, decodeBuffer (damaged 0) true = .desynchronized k ∧ 1 ≤ k ∧ k ≤ 5 + payload.length ∧
      (∀ j, 1 ≤ j → j < k → (damaged 0).getD j 0 ≠ 0x55) ∧
      (k < 5 + payload.length → (damaged 0).getD k 0 = 0x55)) ∧
    (∀ j, (j = 1 ∨ (3 ≤ j ∧ j ≤ 4 + payload.length)) →
      ∃ e g, decodeBuffer (damaged j) true = .checksumMismatch (5 + payload.length) e g) ∧
    ((BitVec.ofNat 8 payload.length).getLsbD bit = false → decodeBuffer (damaged 2) true = .incomplete)

/-- In strict mode every Frame verdict has `ck_ok = 1` (40_codec_ops.md R116 (f), which the spec marks as derived);
in relaxed mode no verdict is ChecksumMismatch, and a frame delivered with `ck_ok = 0` is one that strict mode rejects
(R117 in part). -/
def Obligations.AcceptanceIsNeverSilent : Prop :=
  ∀ buf : Bytes,
    (∀ f, decodeBuffer buf true = .frame f → f.ckOk = true) ∧
    (∀ span e g, decodeBuffer buf false ≠ .checksumMismatch span e g) ∧
    (∀ f, decodeBuffer buf false = .frame f → f.ckOk = false →
      decodeBuffer buf true =
        .checksumMismatch f.consumed (checksum ([f.addr, f.plen, f.cmd] ++ f.payload)) f.ck)

/-- An Incomplete verdict leaves room for a byte (40_codec_ops.md R127, which the spec marks as derived): fewer than
260 bytes are held, and so a full accumulator of a legal capacity is never Incomplete. -/
def Obligations.IncompleteLeavesRoom : Prop :=
  ∀ (s : State) (strict : Bool), s.params.legal = true → decodeBuffer s.acc strict = .incomplete →
    s.acc.length < 260 ∧ ∀ cap, s.params.accCap = some cap → s.acc.length < cap

/-- The loop of RECV and of the attempt ends (40_codec_ops.md R135, 41_correlator_ops.md R156 step A3): what is left
is not Desynchronized; what was dropped holds no sync byte; if anything was dropped, all of it was, up to the next
sync byte (R115): what is left is empty or begins with one; nothing is dropped from what was synchronised. -/
def Obligations.ResynchronisingEndsAndDropsNoSyncByte : Prop :=
  ∀ (buf : Bytes) (strict : Bool),
    (∀ k, decodeBuffer (resync buf strict) strict ≠ .desynchronized k) ∧
    (∃ dropped, buf = dropped ++ resync buf strict ∧ (∀ b ∈ dropped, b ≠ 0x55) ∧
      (dropped ≠ [] → resync buf strict = [] ∨ (resync buf strict).head? = some 0x55)) ∧
    ((∀ k, decodeBuffer buf strict ≠ .desynchronized k) → resync buf strict = buf)

/-- Partial arrival (40_codec_ops.md R138, which the spec marks as derived): what is held after every piece but the
last, that is every proper prefix of the frame, is Incomplete; the whole is the Frame. -/
def Obligations.EveryProperPieceOfAFrameIsIncomplete : Prop :=
  ∀ (cmd : Byte) (payload : Bytes) (strict : Bool) (k : Nat), payload.length ≤ 255 →
    (k < 5 + payload.length → decodeBuffer ((encodeFrame cmd payload).take k) strict = .incomplete) ∧
    ∃ f, decodeBuffer (encodeFrame cmd payload) strict = .frame f ∧ f.cmd = cmd ∧ f.payload = payload

/-! ## RECV and the received frames -/

/-- Garbage without a sync byte before a frame (40_codec_ops.md R137, which the spec marks as derived): one RECV
delivers exactly the frame and drops both. -/
def Obligations.RecvDropsGarbageAndDeliversTheFrame : Prop :=
  ∀ (s : State) (rest : List Input) (garbage : Bytes) (cmd : Byte) (payload : Bytes),
    s.inputs = .recv :: rest → s.busy = false → payload.length ≤ 255 → (∀ b ∈ garbage, b ≠ 0x55) →
    s.acc = garbage ++ encodeFrame cmd payload →
    step s = .next { s with
      acc := [], inputs := rest,
      resp := .verdict (.frame
        { addr := 0x11, plen := BitVec.ofNat 8 payload.length, cmd := cmd, payload := payload,
          ck := frameChecksum 0x11 cmd payload, ckOk := true, consumed := 5 + payload.length }) }

/-- Two frames in one buffer (40_codec_ops.md R136, which the spec marks as derived): three RECVs deliver the first,
the second, and Incomplete, and the accumulator is slid by each frame's length. -/
def Obligations.TwoFramesAreDeliveredInOrder : Prop :=
  ∀ (s : State) (rest : List Input) (c1 c2 : Byte) (p1 p2 : Bytes),
    s.inputs = .recv :: .recv :: .recv :: rest → s.busy = false → p1.length ≤ 255 → p2.length ≤ 255 →
    s.acc = encodeFrame c1 p1 ++ encodeFrame c2 p2 →
    ∃ s1 s2 s3 : State, ∃ f1 f2 : FrameVerdict,
      step s = .next s1 ∧ s1.resp = .verdict (.frame f1) ∧ f1.cmd = c1 ∧ f1.payload = p1 ∧
        f1.consumed = 5 + p1.length ∧ s1.acc = encodeFrame c2 p2 ∧
      step s1 = .next s2 ∧ s2.resp = .verdict (.frame f2) ∧ f2.cmd = c2 ∧ f2.payload = p2 ∧
        f2.consumed = 5 + p2.length ∧ s2.acc = [] ∧
      step s2 = .next s3 ∧ s3.resp = .verdict .incomplete ∧ s3.acc = []

/-- RECV is made of DECODE and DROP: on Incomplete it answers Incomplete in either state; where a DROP is due while
an exchange is in flight it answers Busy and changes nothing. The second is the model's inference (log 13). -/
def Obligations.RecvAnswersIncompleteOrBusyWithoutDropping : Prop :=
  ∀ (s : State) (rest : List Input), s.inputs = .recv :: rest →
    (decodeBuffer s.acc s.strict = .incomplete →
      step s = .next { s with resp := .verdict .incomplete, inputs := rest }) ∧
    (decodeBuffer s.acc s.strict ≠ .incomplete → s.busy = true →
      step s = .next { s with resp := .status .busy, inputs := rest })

/-- RECV over noise alone (40_codec_ops.md R135): with no exchange in flight, where its Desynchronized rounds end in
Incomplete, what they dropped is gone, the answer is Incomplete and nothing else changes. -/
def Obligations.RecvDropsNoiseAndAnswersIncomplete : Prop :=
  ∀ (s : State) (rest : List Input), s.inputs = .recv :: rest → s.busy = false →
    decodeBuffer (resync s.acc s.strict) s.strict = .incomplete →
    step s = .next { s with acc := resync s.acc s.strict, resp := .verdict .incomplete, inputs := rest }

/-- FRAME, OK, block-record, arrow-record and info complete alike, whatever the command byte (30_encoding.md R92):
the frame at the front of the accumulator is removed and its verdict is the one of 40_codec_ops.md R114 steps 4
and 5. That a received frame runs as RECV is the model's reading (log 6). -/
def Obligations.ReceivedFramesAreJudgedAndRemoved : Prop :=
  ∀ (s : State) (addr cmd ck : Byte) (payload later : Bytes), s.busy = false → payload.length ≤ 255 →
    let len := BitVec.ofNat 8 payload.length
    let verdict := fun c : Byte =>
      if checksum ([addr, len, c] ++ payload) ≠ ck ∧ s.strict = true then
        Verdict.checksumMismatch (5 + payload.length) (checksum ([addr, len, c] ++ payload)) ck
      else
        .frame { addr := addr, plen := len, cmd := c, payload := payload, ck := ck,
                 ckOk := (checksum ([addr, len, c] ++ payload) == ck), consumed := 5 + payload.length }
    (s.acc = [0x55, addr, len, cmd] ++ payload ++ [ck] ++ later →
      exec (.frame addr cmd payload ck) s = .next { s with acc := later, resp := .verdict (verdict cmd) } ∧
      exec (.blockRecord addr cmd payload ck) s = .next { s with acc := later, resp := .verdict (verdict cmd) } ∧
      exec (.arrowRecord addr cmd payload ck) s = .next { s with acc := later, resp := .verdict (verdict cmd) } ∧
      exec (.info addr cmd payload ck) s = .next { s with acc := later, resp := .verdict (verdict cmd) }) ∧
    (s.acc = [0x55, addr, len, 0x2E] ++ payload ++ [ck] ++ later →
      exec (.ok addr payload ck) s = .next { s with acc := later, resp := .verdict (verdict 0x2E) })

/-! ## The frames the block sends -/

/-- FRAME.TX and the six requests, written by SEND: the whole frame is appended to `TXLOG` and nothing else changes
(40_codec_ops.md R112, R122, 30_encoding.md R90, R91). That a request's row may be written by SEND is the model's
reading (log 7). -/
def Obligations.RequestsSentAppendTheirFrame : Prop :=
  ∀ (s : State) (cmd : Byte) (payload : Bytes) (id : BitVec 16), s.busy = false → s.tOpen = true →
    let sent := fun bytes => Host.Outcome.next (φ := Fault) (ρ := Refusal)
      { s with txlog := s.txlog ++ bytes, resp := .status .ok }
    (payload.length ≤ 255 →
      exec (.frameTx cmd payload .send) s = sent (encodeFrame cmd payload) ∧
      exec (.algorithmSelect cmd payload .send) s = sent (encodeFrame cmd payload)) ∧
    exec (.knock .send) s = sent [0x55, 0x11, 0x00, 0x2C, 0x3D] ∧
    exec (.blocksRequest cmd .send) s = sent [0x55, 0x11, 0x00, cmd, 0x11 + cmd] ∧
    exec (.arrowsRequest cmd .send) s = sent [0x55, 0x11, 0x00, cmd, 0x11 + cmd] ∧
    exec (.forget cmd .send) s = sent [0x55, 0x11, 0x00, cmd, 0x11 + cmd] ∧
    exec (.learn cmd id .send) s =
      sent [0x55, 0x11, 0x02, cmd, id.extractLsb' 0 8, id.extractLsb' 8 8,
            0x13 + cmd + id.extractLsb' 0 8 + id.extractLsb' 8 8]

/-- FRAME.TX and the six requests, written by an exchange, do what XCHG does with their command byte and payload
(41_correlator_ops.md R161). That a request's row may carry the exchange's timeout is the model's reading (log 7). -/
def Obligations.RequestsExchangedRunXchg : Prop :=
  ∀ (s : State) (cmd : Byte) (payload : Bytes) (id : BitVec 16) (timeout : Nat),
    exec (.frameTx cmd payload (.exchange timeout)) s = exec (.xchg cmd payload timeout) s ∧
    exec (.knock (.exchange timeout)) s = exec (.xchg 0x2C [] timeout) s ∧
    exec (.algorithmSelect cmd payload (.exchange timeout)) s = exec (.xchg cmd payload timeout) s ∧
    exec (.blocksRequest cmd (.exchange timeout)) s = exec (.xchg cmd [] timeout) s ∧
    exec (.arrowsRequest cmd (.exchange timeout)) s = exec (.xchg cmd [] timeout) s ∧
    exec (.learn cmd id (.exchange timeout)) s =
      exec (.xchg cmd [BitVec.ofNat 8 (id.toNat % 256), BitVec.ofNat 8 (id.toNat / 256)] timeout) s ∧
    exec (.forget cmd (.exchange timeout)) s = exec (.xchg cmd [] timeout) s

/-! ## Host operations of the codec -/

/-- STAT returns the record and changes nothing (40_codec_ops.md R134, 10_state.md R28). -/
def Obligations.StatReturnsTheRecord : Prop :=
  ∀ s : State,
    let record : StatRecord :=
      if s.params.hasCorr = true then
        { busy := (s.xState == .busy), accLen := s.acc.length, strict := s.cfg.getLsbD 0, xresKind := s.xRes.kind,
          elapsed := s.xElapsed, timeout := s.xTimeout, pollcnt := s.xPollcnt }
      else
        { busy := false, accLen := s.acc.length, strict := s.cfg.getLsbD 0, xresKind := .none,
          elapsed := 0, timeout := 0, pollcnt := 0 }
    exec .stat s = .next { s with resp := .stat record }

/-- SEND: Busy, then PayloadTooLong, then TransportUnavailable, each changing nothing; else the frame is appended to
`TXLOG` and nothing else changes (40_codec_ops.md R122). -/
def Obligations.SendWritesTheFrameOrRefuses : Prop :=
  ∀ (cmd : Byte) (payload : Bytes) (s : State),
    exec (.send cmd payload) s = .next
      (if s.busy = true then { s with resp := .status .busy }
       else if 255 < payload.length then { s with resp := .status .payloadTooLong }
       else if s.tOpen = false then { s with resp := .status .transportUnavailable }
       else { s with txlog := s.txlog ++ encodeFrame cmd payload, resp := .status .ok })

/-- FILL: Busy, then TransportUnavailable; else `min(max, T.avail(), ACC_CAP - ACC_LEN)` bytes move from the front of
`TQ` to the end of `ACC`, the third term absent with an unbounded capacity (40_codec_ops.md R124). -/
def Obligations.FillPullsWhatFits : Prop :=
  ∀ (max : Nat) (s : State),
    let n := match s.params.accCap with
      | some cap => min max (min s.tq.length (cap - s.acc.length))
      | none => min max s.tq.length
    exec (.fill max) s = .next
      (if s.busy = true then { s with resp := .status .busy }
       else if s.tOpen = false then { s with resp := .status .transportUnavailable }
       else { s with acc := s.acc ++ s.tq.take n, tq := s.tq.drop n, resp := .filled n })

/-- DECODE returns `Decode(ACC, CFG.STRICT)`, in either state, and changes nothing; its kind is one of the status
codes 1 to 4 (40_codec_ops.md R125). -/
def Obligations.DecodeReturnsTheVerdict : Prop :=
  ∀ s : State,
    exec .decode s = .next { s with resp := .verdict (decodeBuffer s.acc (s.cfg.getLsbD 0)) } ∧
    ∃ st, Response.statusOf (.verdict (decodeBuffer s.acc (s.cfg.getLsbD 0))) = some st ∧
      1 ≤ st.code ∧ st.code ≤ 4

/-- DROP: Busy, then BadDrop where more is asked than held; else the front of `ACC` is removed
(40_codec_ops.md R128). -/
def Obligations.DropRemovesTheFront : Prop :=
  ∀ (n : Nat) (s : State),
    exec (.drop n) s = .next
      (if s.busy = true then { s with resp := .status .busy }
       else if s.acc.length < n then { s with resp := .status .badDrop }
       else { s with acc := s.acc.drop n, resp := .status .ok })

/-- FLUSH: Busy; else `ACC` is emptied and neither `TQ` nor anything else is touched (40_codec_ops.md R130). -/
def Obligations.FlushEmptiesTheAccumulatorOnly : Prop :=
  ∀ s : State,
    exec .flush s = .next
      (if s.busy = true then { s with resp := .status .busy } else { s with acc := [], resp := .status .ok })

/-- CFGWR: Busy; else bit 0 of the operand is stored and bits 7:1 are 0 (40_codec_ops.md R132). -/
def Obligations.CfgwrStoresBitZeroOnly : Prop :=
  ∀ (value : Byte) (s : State),
    exec (.cfgwr value) s = .next
      (if s.busy = true then { s with resp := .status .busy }
       else { s with cfg := (if value.getLsbD 0 = true then 0x01 else 0x00), resp := .status .ok })

/-- The seven reserved codes return BadOp and change nothing, busy or not (30_encoding.md R96 in part). -/
def Obligations.ReservedCodesReturnBadOp : Prop :=
  ∀ (s : State), ∀ i ∈ [Instr.reserved7, .reservedA, .reservedB, .reservedC, .reservedD, .reservedE, .reservedF],
    exec i s = .next { s with resp := .status .badOp }

/-- Without a correlator the codes of XCHG and XRES are reserved too, in every state (30_encoding.md R95 in part). That a
frame to be sent by an exchange is answered BadOp as well (log 11, log 7) and that a TICK then changes nothing (log 11)
are the model's choices. -/
def Obligations.WithoutACorrelatorItsOperationsAreReserved : Prop :=
  ∀ s : State, s.params.hasCorr = false →
    (∀ cmd payload timeout,
      exec (.xchg cmd payload timeout) s = .next { s with resp := .status .badOp } ∧
      exec (.frameTx cmd payload (.exchange timeout)) s = .next { s with resp := .status .badOp }) ∧
    exec .xres s = .next { s with resp := .status .badOp } ∧
    exec .tick s = .next { s with resp := .nothing }

/-! ## The correlator -/

/-- XCHG: Busy, PayloadTooLong, TransportUnavailable in that order, each changing nothing; else the accumulator is
flushed, the frame written, the timer armed, the result cleared and the correlator busy
(41_correlator_ops.md R152). -/
def Obligations.XchgStartsTheExchangeOrRefuses : Prop :=
  ∀ (cmd : Byte) (payload : Bytes) (timeout : Nat) (s : State), s.params.hasCorr = true →
    exec (.xchg cmd payload timeout) s = .next
      (if s.xState = .busy then { s with resp := .status .busy }
       else if 255 < payload.length then { s with resp := .status .payloadTooLong }
       else if s.tOpen = false then { s with resp := .status .transportUnavailable }
       else { s with
         acc := [], txlog := s.txlog ++ encodeFrame cmd payload, xElapsed := 0, xTimeout := timeout, xPollcnt := 0,
         xRes := { kind := .none, addr := 0, plen := 0, cmd := 0, payload := [], ck := 0, ckOk := false,
                   expected := 0 },
         xState := .busy, resp := .status .ok })

/-- XRES returns `X.RES`, at any time, and changes nothing; in a good state with an exchange in flight its kind is NONE
(41_correlator_ops.md R160). -/
def Obligations.XresReturnsTheRecord : Prop :=
  ∀ s : State, s.params.hasCorr = true →
    exec .xres s = .next { s with resp := .xres s.xRes } ∧
    (s.wf = true → s.xState = .busy → s.xRes.kind = .none)

/-- TICK while IDLE changes nothing; it returns nothing (41_correlator_ops.md R154). -/
def Obligations.IdleTickChangesNothing : Prop :=
  ∀ s : State, s.params.hasCorr = true → s.xState = .idle → exec .tick s = .next { s with resp := .nothing }

/-- A waiting tick counts `X.POLLCNT` down and `X.ELAPSED` up to saturation; nothing else changes and the transport
is not touched (41_correlator_ops.md R155). -/
def Obligations.WaitingTickCountsOnly : Prop :=
  ∀ s : State, s.busy = true → 0 < s.xPollcnt →
    exec .tick s = .next { s with
      xPollcnt := s.xPollcnt - 1, xElapsed := min (s.xElapsed + 1) (2 ^ s.params.timerW - 1), resp := .nothing }

/-- An attempt, whole (41_correlator_ops.md R156): transport loss first; then what fits is pulled, desynchronised
prefixes are dropped, and a frame or a checksum mismatch ends the exchange, an incomplete buffer only past the
timeout; the tick is counted in every case. -/
def Obligations.AttemptFollowsItsSteps : Prop :=
  ∀ s : State, s.busy = true → s.xPollcnt = 0 →
    let counted := min (s.xElapsed + 1) (2 ^ s.params.timerW - 1)
    let n := match s.params.accCap with
      | some cap => min s.tq.length (cap - s.acc.length)
      | none => s.tq.length
    let buf := resync (s.acc ++ s.tq.take n) (s.cfg.getLsbD 0)
    let bare := fun kind => XRes.mk kind 0 0 0 [] 0 false 0
    (s.tOpen = false →
      exec .tick s = .next { s with
        xRes := bare .transport, xState := .idle, xElapsed := counted, resp := .nothing }) ∧
    (s.tOpen = true → ∀ f, decodeBuffer buf (s.cfg.getLsbD 0) = .frame f →
      exec .tick s = .next { s with
        acc := buf.drop f.consumed, tq := s.tq.drop n,
        xRes := { kind := .frame, addr := f.addr, plen := f.plen, cmd := f.cmd, payload := f.payload, ck := f.ck,
                  ckOk := f.ckOk, expected := checksum ([f.addr, f.plen, f.cmd] ++ f.payload) },
        xState := .idle, xElapsed := counted, resp := .nothing }) ∧
    (s.tOpen = true → ∀ span e got, decodeBuffer buf (s.cfg.getLsbD 0) = .checksumMismatch span e got →
      exec .tick s = .next { s with
        acc := buf.drop span, tq := s.tq.drop n,
        xRes := { kind := .cksum, addr := buf.getD 1 0, plen := buf.getD 2 0, cmd := buf.getD 3 0,
                  payload := (buf.drop 4).take (buf.getD 2 0).toNat, ck := got, ckOk := false, expected := e },
        xState := .idle, xElapsed := counted, resp := .nothing }) ∧
    (s.tOpen = true → decodeBuffer buf (s.cfg.getLsbD 0) = .incomplete →
      exec .tick s = .next
        (if s.xTimeout < s.xElapsed then
          { s with acc := buf, tq := s.tq.drop n, xRes := bare .timeout, xState := .idle, xElapsed := counted,
                   resp := .nothing }
         else
          { s with acc := buf, tq := s.tq.drop n, xPollcnt := s.params.pollInterval - 1, xElapsed := counted,
                   resp := .nothing })) ∧
    (∀ k, decodeBuffer buf (s.cfg.getLsbD 0) ≠ .desynchronized k)

/-- A frame that is there when the attempt has pulled its bytes is delivered, however long ago the deadline passed:
after garbage without a sync byte, whatever follows it, whether it came through `TQ` now or stood in `ACC` in part
(41_correlator_ops.md R158 (a), R162: the first frame, whatever its command byte). -/
def Obligations.AFramePresentBeatsTheDeadline : Prop :=
  ∀ (s : State) (garbage later : Bytes) (cmd : Byte) (payload : Bytes),
    let n := match s.params.accCap with
      | some cap => min s.tq.length (cap - s.acc.length)
      | none => s.tq.length
    s.busy = true → s.xPollcnt = 0 → s.tOpen = true → payload.length ≤ 255 → (∀ b ∈ garbage, b ≠ 0x55) →
    s.acc ++ s.tq.take n = garbage ++ encodeFrame cmd payload ++ later →
    ∃ t, exec .tick s = .next t ∧ t.busy = false ∧ t.xRes.kind = .frame ∧ t.xRes.cmd = cmd ∧
      t.xRes.payload = payload ∧ t.xRes.ckOk = true ∧ t.acc = later ∧ t.tq = s.tq.drop n

/-- The stale-response hazard (70_reset_and_hazards.md R222, which the spec marks as derived): XCHG flushes `ACC` but
not `TQ`, so a frame already pending in the transport is delivered as the result of the new request. -/
def Obligations.AStaleFrameIsDeliveredToTheNewRequest : Prop :=
  ∀ (s : State) (cmd stale : Byte) (payload old later : Bytes) (timeout : Nat),
    s.params.legal = true → s.params.hasCorr = true → s.xState = .idle → s.tOpen = true →
    payload.length ≤ 255 → old.length ≤ 255 → s.tq = encodeFrame stale old ++ later →
    ∃ t u, exec (.xchg cmd payload timeout) s = .next t ∧ t.tq = s.tq ∧ exec .tick t = .next u ∧
      u.busy = false ∧ u.xRes.kind = .frame ∧ u.xRes.cmd = stale ∧ u.xRes.payload = old

/-- The timing law (41_correlator_ops.md R159, which the spec marks as derived): nothing arrives, the transport stays
open; with `P = POLL_INTERVAL` and a timeout below the saturation value the exchange is in flight for the first
`P * (timeout / P + 1)` ticks and the next one ends it with TIMEOUT, `X.ELAPSED` holding the ticks taken or the
saturation value. -/
def Obligations.AnUnansweredExchangeTimesOutOnTime : Prop :=
  ∀ s : State, s.params.legal = true → s.params.hasCorr = true → s.xState = .busy → s.xElapsed = 0 →
    s.xPollcnt = 0 → s.tOpen = true → s.tq = [] → decodeBuffer s.acc s.strict = .incomplete →
    s.xTimeout < 2 ^ s.params.timerW - 1 →
    let ticks := s.params.pollInterval * (s.xTimeout / s.params.pollInterval + 1) + 1
    s.inputs = List.replicate ticks .tick →
    (∀ k < ticks, ∃ t, Host.Core.run Sys2Proof.core k s = .next t ∧ t.busy = true ∧ t.xRes = s.xRes) ∧
    ∃ t, Host.Core.run Sys2Proof.core ticks s = .next t ∧ t.busy = false ∧ t.xRes = XRes.bare .timeout ∧
      t.xElapsed = min ticks (2 ^ s.params.timerW - 1) ∧ t.acc = s.acc ∧ t.txlog = s.txlog

/-- The timeout that never expires (41_correlator_ops.md R159, 70_reset_and_hazards.md R228, which the spec marks as
derived): with a timeout of `2^TIMER_W - 1` and nothing arriving the exchange is still in flight after any number
of ticks, and RESET ends it. -/
def Obligations.TheLargestTimeoutNeverExpires : Prop :=
  ∀ (s : State) (k : Nat), s.params.legal = true → s.params.hasCorr = true → s.xState = .busy →
    s.xElapsed < 2 ^ s.params.timerW → s.tOpen = true → s.tq = [] → decodeBuffer s.acc s.strict = .incomplete →
    s.xTimeout = 2 ^ s.params.timerW - 1 → s.inputs = List.replicate k .tick →
    ∃ t, Host.Core.run Sys2Proof.core k s = .next t ∧ t.busy = true ∧
      ∃ u, exec .reset t = .next u ∧ u.busy = false ∧ u.xRes = XRes.bare .none

/-! ## Reset -/

/-- RESET, in any state: every state element at its reset value, nothing returned, the transport untouched
(70_reset_and_hazards.md R210, 10_state.md R40, R41). -/
def Obligations.ResetSetsEveryElementAndLeavesTheTransport : Prop :=
  ∀ s : State,
    exec .reset s = .next { s with
      acc := [], cfg := 0x01, xState := .idle, xElapsed := 0, xTimeout := 0, xPollcnt := 0,
      xRes := { kind := .none, addr := 0, plen := 0, cmd := 0, payload := [], ck := 0, ckOk := false,
                expected := 0 },
      resp := .nothing }

/-- The machine starts in the reset state (10_state.md R40, 00_scope.md R7). -/
def Obligations.TheMachineStartsInTheResetState : Prop :=
  Sys2Proof.core.reset = State.reset ∧
  State.reset.acc = [] ∧ State.reset.cfg = 0x01 ∧ State.reset.xState = .idle ∧ State.reset.xElapsed = 0 ∧
  State.reset.xTimeout = 0 ∧ State.reset.xPollcnt = 0 ∧
  State.reset.xRes = { kind := .none, addr := 0, plen := 0, cmd := 0, payload := [], ck := 0, ckOk := false,
                       expected := 0 }

/-! ## The whole machine -/

/-- A good state stays good: legal parameters, the accumulator within its capacity, the reserved bits of `CFG` zero,
the timers within their widths, the result record as 10_state.md R34 says, NONE while an exchange is in flight. -/
def Obligations.EveryStepKeepsTheStateGood : Prop :=
  ∀ s t : State, s.wf = true → step s = .next t → t.wf = true

/-- The reset state is good, with any legal parameters, any transport and any inputs. -/
def Obligations.TheResetStateIsGood : Prop :=
  State.reset.wf = true ∧
  ∀ (p : Params) (tq txlog : Bytes) (tOpen : Bool) (inputs : List Input), p.legal = true →
    State.wf { State.reset with params := p, tq := tq, txlog := txlog, tOpen := tOpen, inputs := inputs } = true

/-- Every run from reset is safe: every state it reaches is good. That none faults is empty, since the model has no
faults (60_exceptions.md R180; log 20). -/
def Obligations.EveryRunFromResetIsSafe : Prop :=
  ∀ s : State, Reachable s → s.wf = true ∧ SafeRun s

/-- The busy check (40_codec_ops.md R121): while an exchange is in flight the state-changing operations answer Busy and
change nothing, DECODE, STAT and XRES are accepted, and every instruction but TICK and RESET leaves all state as it
was, so that the exchange owns the accumulator and the transport; without a correlator the check never fires. -/
def Obligations.AnExchangeInFlightOwnsTheBlock : Prop :=
  ∀ (s : State),
    (s.busy = true → ∀ i t, i ≠ .tick → i ≠ .reset → exec i s = .next t → t = { s with resp := t.resp }) ∧
    (s.busy = true → ∀ cmd payload max n value timeout,
      ∀ i ∈ [Instr.send cmd payload, .fill max, .drop n, .flush, .cfgwr value, .xchg cmd payload timeout],
        exec i s = .next { s with resp := .status .busy }) ∧
    (s.busy = true → ∀ i ∈ [Instr.decode, .stat, .xres], exec i s ≠ .next { s with resp := .status .busy }) ∧
    (s.params.hasCorr = false → s.busy = false)

/-- BUSY is entered only by an accepted exchange and left only at the end of an attempt, which is a TICK with
`X.POLLCNT = 0`, or by RESET (10_state.md R30). That a frame's row may enter it as XCHG does is the model's reading
(log 7). -/
def Obligations.BusyIsEnteredByExchangeAndLeftByTickOrReset : Prop :=
  ∀ (i : Instr) (s t : State), exec i s = .next t →
    (s.busy = false → t.busy = true →
      t.resp = .status .ok ∧ ∃ cmd payload timeout, exec i s = exec (.xchg cmd payload timeout) s) ∧
    (s.busy = true → t.busy = false → (i = .tick ∧ s.xPollcnt = 0 ∧ t.xRes.kind ≠ .none) ∨ i = .reset)

/-- `X.RES` is written in three places only: an accepted exchange clears it, the tick that ends an exchange writes
it, reset clears it (10_state.md R35). -/
def Obligations.TheResultIsWrittenInThreePlacesOnly : Prop :=
  ∀ (i : Instr) (s t : State), exec i s = .next t →
    t.xRes = s.xRes ∨ (s.busy = false ∧ t.busy = true ∧ t.xRes = XRes.bare .none) ∨
    (i = .tick ∧ s.busy = true ∧ t.busy = false) ∨ (i = .reset ∧ t.xRes = XRes.bare .none)

/-- `CFG` is written only by CFGWR and by reset (10_state.md R22), and no instruction writes a parameter, the
transport's open flag or the inputs. -/
def Obligations.OnlyCfgwrAndResetWriteCfg : Prop :=
  ∀ (i : Instr) (s t : State), exec i s = .next t →
    (t.cfg ≠ s.cfg → (∃ value, i = .cfgwr value) ∨ i = .reset) ∧
    t.params = s.params ∧ t.tOpen = s.tOpen ∧ t.inputs = s.inputs

/-- First in, first out (20_memory.md R66 (a), (b)): whatever a step of the block does, the bytes held and pending
after it are the bytes held and pending before it less some from the front, or, where the accumulator is emptied at
once, less all that was held. -/
def Obligations.BytesMoveFirstInFirstOut : Prop :=
  ∀ (i : Instr) (s t : State), exec i s = .next t →
    ∃ removed, s.acc ++ s.tq = removed ++ (t.acc ++ t.tq)

/-- `TXLOG` grows by whole frames only (20_memory.md R55, R51): a step appends nothing or exactly one frame that
Encode built; a TICK appends nothing, in any state (41_correlator_ops.md R157). -/
def Obligations.TheTransportIsWrittenByWholeFrames : Prop :=
  (∀ (s t : State), step s = .next t →
    t.txlog = s.txlog ∨
    (s.tOpen = true ∧ s.busy = false ∧ t.resp = .status .ok ∧
      ∃ cmd payload, payload.length ≤ 255 ∧ t.txlog = s.txlog ++ encodeFrame cmd payload)) ∧
  ∀ (s t : State), exec .tick s = .next t → t.txlog = s.txlog
end

