-- ==== Sys2Proof/Laws/Codec.lean ====
section
/-! SUPPORT. What the checksum, the frame reader, Decode and resynchronising do, each said once. -/

namespace Sys2Proof

/-! ## The constants as numbers -/

theorem Config.SYNC_eq : Config.SYNC = 0x55#8 := rfl
theorem Config.ADDR_eq : Config.ADDR = 0x11#8 := rfl
theorem Config.CC_KNOCK_eq : Config.CC_KNOCK = 0x2C#8 := rfl
theorem Config.CC_OK_eq : Config.CC_OK = 0x2E#8 := rfl
@[simp] theorem Config.OVERHEAD_eq : Config.OVERHEAD = 5 := rfl
@[simp] theorem Config.MAX_PAYLOAD_eq : Config.MAX_PAYLOAD = 255 := rfl
@[simp] theorem Config.MAX_FRAME_eq : Config.MAX_FRAME = 260 := rfl

/-! ## Sums and lengths -/

@[simp] theorem byteSum_nil : byteSum [] = 0 := rfl

@[simp] theorem byteSum_cons (b : Byte) (s : Bytes) : byteSum (b :: s) = b.toNat + byteSum s := rfl

theorem byteSum_append (s t : Bytes) : byteSum (s ++ t) = byteSum s + byteSum t := by
  induction s with
  | nil => simp
  | cons b s ih => simp [ih]; omega

theorem checksum_toNat (s : Bytes) : (checksum s).toNat = byteSum s % 256 := by
  simp [checksum]

/-- What it takes for a timeout to fit its port. -/
theorem timeoutFits_iff (p : Params) (timeout : Nat) :
    timeoutFits p timeout = true ↔ p.hasCorr = false ∨ timeout < 2 ^ p.timerW := by
  simp [timeoutFits]

theorem lengthByte_toNat (payload : Bytes) (h : payload.length ≤ 255) :
    (lengthByte payload).toNat = payload.length := by
  simp [lengthByte]; omega

@[simp] theorem wireBytes_length (addr cmd : Byte) (payload : Bytes) (ck : Byte) :
    (wireBytes addr cmd payload ck).length = frameLength payload := by
  simp [wireBytes, frameLength]; omega

/-- What Encode emits is the wire form of the frame with the block's address and its checksum. -/
theorem encodeFrame_eq_wireBytes (cmd : Byte) (payload : Bytes) :
    encodeFrame cmd payload = wireBytes Config.ADDR cmd payload (frameChecksum Config.ADDR cmd payload) := rfl

/-! ## Looking for a sync byte -/

theorem bytesBeforeSync_le (s : Bytes) : bytesBeforeSync s ≤ s.length := by
  induction s with
  | nil => simp [bytesBeforeSync]
  | cons b s ih => simp only [bytesBeforeSync]; split <;> simp; omega

/-- No byte before the one found is a sync byte. -/
theorem mem_take_bytesBeforeSync (s : Bytes) : ∀ b ∈ s.take (bytesBeforeSync s), b ≠ Config.SYNC := by
  induction s with
  | nil => simp
  | cons c s ih =>
    simp only [bytesBeforeSync]
    split
    · simp
    · rename_i hc
      rw [Nat.add_comm, List.take_succ_cons]
      intro b hb
      rcases List.mem_cons.mp hb with rfl | hb
      · exact hc
      · exact ih b hb

/-- What is left after the bytes before the sync byte is empty or begins with it. -/
theorem drop_bytesBeforeSync (s : Bytes) :
    s.drop (bytesBeforeSync s) = [] ∨ ∃ rest, s.drop (bytesBeforeSync s) = Config.SYNC :: rest := by
  induction s with
  | nil => simp
  | cons c s ih =>
    simp only [bytesBeforeSync]
    split
    · rename_i hc; right; exact ⟨s, by simp [hc]⟩
    · rw [Nat.add_comm, List.drop_succ_cons]; exact ih

theorem bytesBeforeSync_append_of_forall_ne (g s : Bytes) (h : ∀ b ∈ g, b ≠ Config.SYNC) :
    bytesBeforeSync (g ++ s) = g.length + bytesBeforeSync s := by
  induction g with
  | nil => simp
  | cons c g ih =>
    have hc : c ≠ Config.SYNC := h c (by simp)
    simp only [List.cons_append, bytesBeforeSync, hc, if_false, List.length_cons]
    rw [ih (fun b hb => h b (by simp [hb]))]; omega

/-! ## The frame at the front of a buffer -/

theorem readFrame_of_short (buf : Bytes) (h : buf.length < 5) : readFrame buf = .error .short := by
  match buf, h with
  | [], _ => rfl
  | [_], _ => rfl
  | [_, _], _ => rfl
  | [_, _, _], _ => rfl
  | [_, _, _, _], _ => rfl
  | _ :: _ :: _ :: _ :: _ :: _, h => simp at h; omega

theorem readFrame_of_noSync (b : Byte) (rest : Bytes) (h5 : 4 ≤ rest.length) (hb : b ≠ Config.SYNC) :
    readFrame (b :: rest) = .error (.noSync (1 + bytesBeforeSync rest)) := by
  match rest, h5 with
  | _ :: _ :: _ :: _ :: _, _ => simp [readFrame, hb]
  | [], h => simp at h
  | [_], h => simp at h
  | [_, _], h => simp at h
  | [_, _, _], h => simp at h

/-- A frame on the wire reads back as its fields, whatever follows it. -/
theorem readFrame_wireBytes (addr cmd : Byte) (payload : Bytes) (ck : Byte) (later : Bytes)
    (h : payload.length ≤ 255) :
    readFrame (wireBytes addr cmd payload ck ++ later) =
      .ok { addr := addr, cmd := cmd, payload := payload, ck := ck } := by
  obtain ⟨b4, rest, hb⟩ : ∃ b4 rest, payload ++ [ck] ++ later = b4 :: rest := by
    cases payload with
    | nil => exact ⟨ck, later, rfl⟩
    | cons c p => exact ⟨c, p ++ [ck] ++ later, by simp⟩
  have hw : wireBytes addr cmd payload ck ++ later =
      Config.SYNC :: addr :: lengthByte payload :: cmd :: b4 :: rest := by
    rw [← hb]; simp [wireBytes]
  have hlen : (b4 :: rest).length = payload.length + 1 + later.length := by rw [← hb]; simp; omega
  have hn := lengthByte_toNat payload h
  rw [hw, readFrame]
  simp only [ne_eq, not_true, if_false, hn, List.length_cons, Config.OVERHEAD_eq]
  rw [if_neg (by simp at hlen; omega)]
  have htake : (List.drop 4 (Config.SYNC :: addr :: lengthByte payload :: cmd :: b4 :: rest)).take payload.length =
      payload := by simp only [List.drop_succ_cons, List.drop_zero]; rw [← hb]; simp
  have hck : (List.drop (4 + payload.length)
      (Config.SYNC :: addr :: lengthByte payload :: cmd :: b4 :: rest)).headD 0 = ck := by
    rw [Nat.add_comm]; simp only [List.drop_succ_cons]; rw [← hb]; simp
  rw [htake, hck]

/-- A frame read from a buffer stands there, and its payload fits its length byte. -/
theorem readFrame_ok (buf : Bytes) (f : WireFrame) (h : readFrame buf = .ok f) :
    f.payload.length ≤ 255 ∧ ∃ later, buf = wireBytes f.addr f.cmd f.payload f.ck ++ later := by
  match buf, h with
  | sync :: addr :: len :: cmd :: b4 :: rest, h =>
    rw [readFrame] at h
    split at h
    · cases h
    · rename_i hs
      split at h
      · cases h
      · rename_i hn
        have hsync : sync = Config.SYNC := by simpa using hs
        simp only [List.length_cons, Config.OVERHEAD_eq, List.drop_succ_cons, List.drop_zero, not_lt] at hn h
        have hlen := len.isLt
        have hp : ((b4 :: rest).take len.toNat).length = len.toNat := by simp; omega
        have hd : ∃ ck later, (b4 :: rest).drop len.toNat = ck :: later := by
          cases hdd : (b4 :: rest).drop len.toNat with
          | nil => have := congrArg List.length hdd; simp at this; omega
          | cons ck later => exact ⟨ck, later, rfl⟩
        obtain ⟨ck, later, hd⟩ := hd
        have h4 : List.drop (4 + len.toNat) (sync :: addr :: len :: cmd :: b4 :: rest) = ck :: later := by
          rw [Nat.add_comm]; simpa using hd
        rw [h4] at h
        injection h with h
        subst h
        refine ⟨by simp only [hp]; omega, later, ?_⟩
        have hl : lengthByte ((b4 :: rest).take len.toNat) = len := by
          rw [lengthByte, hp]; simp
        have happ : (b4 :: rest).take len.toNat ++ (ck :: later) = b4 :: rest := by
          rw [← hd]; exact List.take_append_drop _ _
        simp [wireBytes, hl, hsync, happ]
  | [], h => cases h
  | [_], h => cases h
  | [_, _], h => cases h
  | [_, _, _], h => cases h
  | [_, _, _, _], h => cases h

/-- Why a buffer holds no whole frame: too short, or no sync byte in front, or too short for the declared length. -/
theorem readFrame_error (buf : Bytes) (e : DecodeError) (h : readFrame buf = .error e) :
    (e = .short ∧ buf.length < 5) ∨
    (∃ b rest, buf = b :: rest ∧ b ≠ Config.SYNC ∧ 4 ≤ rest.length ∧ e = .noSync (1 + bytesBeforeSync rest)) ∨
    (∃ addr len rest, buf = Config.SYNC :: addr :: len :: rest ∧ 5 ≤ buf.length ∧
      buf.length < 5 + len.toNat ∧ e = .partialFrame (5 + len.toNat)) := by
  match buf, h with
  | sync :: addr :: len :: cmd :: b4 :: rest, h =>
    rw [readFrame] at h
    split at h
    · rename_i hs
      injection h with h
      exact .inr (.inl ⟨_, _, rfl, hs, by simp, h.symm⟩)
    · rename_i hs
      split at h
      · rename_i hn
        injection h with h
        have hsync : sync = Config.SYNC := by simpa using hs
        exact .inr (.inr ⟨addr, len, _, by rw [hsync], by simp, hn, h.symm⟩)
      · cases h
  | [], h => injection h with h; exact .inl ⟨h.symm, by simp⟩
  | [_], h => injection h with h; exact .inl ⟨h.symm, by simp⟩
  | [_, _], h => injection h with h; exact .inl ⟨h.symm, by simp⟩
  | [_, _, _], h => injection h with h; exact .inl ⟨h.symm, by simp⟩
  | [_, _, _, _], h => injection h with h; exact .inl ⟨h.symm, by simp⟩

namespace Machine

/-! ## Decode -/

/-- A judged frame is a Frame or a ChecksumMismatch. -/
theorem judge_cases (strict : Bool) (f : WireFrame) :
    (judge strict f = .checksumMismatch (frameLength f.payload) (frameChecksum f.addr f.cmd f.payload) f.ck ∧
      f.ckOk = false ∧ strict = true) ∨
    (judge strict f = .frame
        { addr := f.addr, plen := lengthByte f.payload, cmd := f.cmd, payload := f.payload, ck := f.ck,
          ckOk := f.ckOk, consumed := frameLength f.payload } ∧ (f.ckOk = true ∨ strict = false)) := by
  unfold judge
  split
  · rename_i h; exact .inl ⟨rfl, h.1, h.2⟩
  · rename_i h; refine .inr ⟨rfl, ?_⟩; cases h1 : f.ckOk <;> cases strict <;> simp_all

theorem decodeBuffer_of_frame (buf : Bytes) (strict : Bool) (f : WireFrame) (h : readFrame buf = .ok f) :
    decodeBuffer buf strict = judge strict f := by
  simp [decodeBuffer, h]

/-- Decode says once what it can do: Incomplete on a buffer too short; Desynchronized up to the next sync byte; or
the judgement of the frame that stands in front. -/
theorem decodeBuffer_cases (buf : Bytes) (strict : Bool) :
    (decodeBuffer buf strict = .incomplete ∧
      (buf.length < 5 ∨ ∃ addr len rest, buf = Config.SYNC :: addr :: len :: rest ∧ buf.length < 5 + len.toNat)) ∨
    (∃ b rest, buf = b :: rest ∧ b ≠ Config.SYNC ∧ 4 ≤ rest.length ∧
      decodeBuffer buf strict = .desynchronized (1 + bytesBeforeSync rest)) ∨
    (∃ f later, readFrame buf = .ok f ∧ f.payload.length ≤ 255 ∧
      buf = wireBytes f.addr f.cmd f.payload f.ck ++ later ∧ decodeBuffer buf strict = judge strict f) := by
  cases hr : readFrame buf with
  | ok f =>
    obtain ⟨hp, later, hb⟩ := readFrame_ok buf f hr
    exact .inr (.inr ⟨f, later, rfl, hp, hb, decodeBuffer_of_frame buf strict f hr⟩)
  | error e =>
    rcases readFrame_error buf e hr with ⟨rfl, h5⟩ | ⟨b, rest, hb, hne, h4, rfl⟩ | ⟨addr, len, rest, hb, _, hn, rfl⟩
    · exact .inl ⟨by simp [decodeBuffer, hr], .inl h5⟩
    · exact .inr (.inl ⟨b, rest, hb, hne, h4, by simp [decodeBuffer, hr]⟩)
    · exact .inl ⟨by simp [decodeBuffer, hr], .inr ⟨addr, len, rest, hb, hn⟩⟩

/-- A buffer whose first byte is the sync byte is never Desynchronized. -/
theorem decodeBuffer_sync_ne_desynchronized (rest : Bytes) (strict : Bool) (k : Nat) :
    decodeBuffer (Config.SYNC :: rest) strict ≠ .desynchronized k := by
  rcases decodeBuffer_cases (Config.SYNC :: rest) strict with ⟨h, _⟩ | ⟨b, r, hb, hne, _⟩ | ⟨f, _, _, _, _, h⟩
  · simp [h]
  · injection hb with hb; exact absurd hb.symm hne
  · rcases judge_cases strict f with ⟨hj, _⟩ | ⟨hj, _⟩ <;> simp [h, hj]

/-! ## Resynchronising -/

/-- A round on a buffer that is not desynchronised is the last. -/
theorem resyncRounds_of_settled (strict : Bool) (fuel : Nat) (buf : Bytes)
    (h : ∀ k, decodeBuffer buf strict ≠ .desynchronized k) : resyncRounds strict fuel buf = buf := by
  cases fuel with
  | zero => rfl
  | succ n =>
    rw [resyncRounds]
    split
    · rename_i k hk; exact absurd hk (h k)
    · rfl

/-- One round is enough: what a desynchronised buffer leaves is empty or begins with the sync byte. -/
theorem resync_of_desynchronized (b : Byte) (rest : Bytes) (strict : Bool) (h4 : 4 ≤ rest.length)
    (hb : b ≠ Config.SYNC) : resync (b :: rest) strict = rest.drop (bytesBeforeSync rest) := by
  have hd : decodeBuffer (b :: rest) strict = .desynchronized (1 + bytesBeforeSync rest) := by
    simp [decodeBuffer, readFrame_of_noSync b rest h4 hb]
  have hdrop : (b :: rest).drop (1 + bytesBeforeSync rest) = rest.drop (bytesBeforeSync rest) := by
    rw [Nat.add_comm]; rfl
  rw [resync, List.length_cons, resyncRounds]
  simp only [hd, hdrop]
  apply resyncRounds_of_settled
  intro k
  rcases drop_bytesBeforeSync rest with he | ⟨r, he⟩ <;> rw [he]
  · simp [decodeBuffer, readFrame]
  · exact decodeBuffer_sync_ne_desynchronized r strict k

/-- Resynchronising says once what it can do: nothing, or drop a front that holds no sync byte. -/
theorem resync_cases (buf : Bytes) (strict : Bool) :
    ((∀ k, decodeBuffer buf strict ≠ .desynchronized k) ∧ resync buf strict = buf) ∨
    (∃ b rest, buf = b :: rest ∧ b ≠ Config.SYNC ∧ 4 ≤ rest.length ∧
      resync buf strict = rest.drop (bytesBeforeSync rest)) := by
  rcases decodeBuffer_cases buf strict with ⟨h, _⟩ | ⟨b, rest, rfl, hne, h4, h⟩ | ⟨f, later, _, _, _, h⟩
  · have hs : ∀ k, decodeBuffer buf strict ≠ .desynchronized k := by simp [h]
    exact .inl ⟨hs, resyncRounds_of_settled strict _ buf hs⟩
  · exact .inr ⟨b, rest, rfl, hne, h4, resync_of_desynchronized b rest strict h4 hne⟩
  · have hs : ∀ k, decodeBuffer buf strict ≠ .desynchronized k := by
      rcases judge_cases strict f with ⟨hj, _⟩ | ⟨hj, _⟩ <;> simp [h, hj]
    exact .inl ⟨hs, resyncRounds_of_settled strict _ buf hs⟩

end Machine

end Sys2Proof
end

