-- ==== Sys2Proof/Laws/State.lean ====
section
/-! SUPPORT. What each named write of the state leaves in each field, and what the flags and counts read. -/

namespace Sys2Proof.Machine

variable (s : State)

section
variable (v : Bytes)
@[simp] theorem State.setAcc_params : (s.setAcc v).params = s.params := rfl
@[simp] theorem State.setAcc_acc : (s.setAcc v).acc = v := rfl
@[simp] theorem State.setAcc_cfg : (s.setAcc v).cfg = s.cfg := rfl
@[simp] theorem State.setAcc_xState : (s.setAcc v).xState = s.xState := rfl
@[simp] theorem State.setAcc_xElapsed : (s.setAcc v).xElapsed = s.xElapsed := rfl
@[simp] theorem State.setAcc_xTimeout : (s.setAcc v).xTimeout = s.xTimeout := rfl
@[simp] theorem State.setAcc_xPollcnt : (s.setAcc v).xPollcnt = s.xPollcnt := rfl
@[simp] theorem State.setAcc_xRes : (s.setAcc v).xRes = s.xRes := rfl
@[simp] theorem State.setAcc_tq : (s.setAcc v).tq = s.tq := rfl
@[simp] theorem State.setAcc_tOpen : (s.setAcc v).tOpen = s.tOpen := rfl
@[simp] theorem State.setAcc_txlog : (s.setAcc v).txlog = s.txlog := rfl
@[simp] theorem State.setAcc_resp : (s.setAcc v).resp = s.resp := rfl
@[simp] theorem State.setAcc_inputs : (s.setAcc v).inputs = s.inputs := rfl
@[simp] theorem State.setAcc_strict : (s.setAcc v).strict = s.strict := rfl
@[simp] theorem State.setAcc_busy : (s.setAcc v).busy = s.busy := rfl
@[simp] theorem State.setAcc_sat (n : Nat) : (s.setAcc v).sat n = s.sat n := rfl
end

section
variable (v : Byte)
@[simp] theorem State.setCfg_params : (s.setCfg v).params = s.params := rfl
@[simp] theorem State.setCfg_acc : (s.setCfg v).acc = s.acc := rfl
@[simp] theorem State.setCfg_cfg : (s.setCfg v).cfg = v := rfl
@[simp] theorem State.setCfg_xState : (s.setCfg v).xState = s.xState := rfl
@[simp] theorem State.setCfg_xElapsed : (s.setCfg v).xElapsed = s.xElapsed := rfl
@[simp] theorem State.setCfg_xTimeout : (s.setCfg v).xTimeout = s.xTimeout := rfl
@[simp] theorem State.setCfg_xPollcnt : (s.setCfg v).xPollcnt = s.xPollcnt := rfl
@[simp] theorem State.setCfg_xRes : (s.setCfg v).xRes = s.xRes := rfl
@[simp] theorem State.setCfg_tq : (s.setCfg v).tq = s.tq := rfl
@[simp] theorem State.setCfg_tOpen : (s.setCfg v).tOpen = s.tOpen := rfl
@[simp] theorem State.setCfg_txlog : (s.setCfg v).txlog = s.txlog := rfl
@[simp] theorem State.setCfg_resp : (s.setCfg v).resp = s.resp := rfl
@[simp] theorem State.setCfg_inputs : (s.setCfg v).inputs = s.inputs := rfl
@[simp] theorem State.setCfg_strict : (s.setCfg v).strict = v.getLsbD 0 := rfl
@[simp] theorem State.setCfg_busy : (s.setCfg v).busy = s.busy := rfl
@[simp] theorem State.setCfg_sat (n : Nat) : (s.setCfg v).sat n = s.sat n := rfl
@[simp] theorem State.setCfg_pullCount (n : Nat) : (s.setCfg v).pullCount n = s.pullCount n := rfl
end

section
variable (v : XState)
@[simp] theorem State.setXState_params : (s.setXState v).params = s.params := rfl
@[simp] theorem State.setXState_acc : (s.setXState v).acc = s.acc := rfl
@[simp] theorem State.setXState_cfg : (s.setXState v).cfg = s.cfg := rfl
@[simp] theorem State.setXState_xState : (s.setXState v).xState = v := rfl
@[simp] theorem State.setXState_xElapsed : (s.setXState v).xElapsed = s.xElapsed := rfl
@[simp] theorem State.setXState_xTimeout : (s.setXState v).xTimeout = s.xTimeout := rfl
@[simp] theorem State.setXState_xPollcnt : (s.setXState v).xPollcnt = s.xPollcnt := rfl
@[simp] theorem State.setXState_xRes : (s.setXState v).xRes = s.xRes := rfl
@[simp] theorem State.setXState_tq : (s.setXState v).tq = s.tq := rfl
@[simp] theorem State.setXState_tOpen : (s.setXState v).tOpen = s.tOpen := rfl
@[simp] theorem State.setXState_txlog : (s.setXState v).txlog = s.txlog := rfl
@[simp] theorem State.setXState_resp : (s.setXState v).resp = s.resp := rfl
@[simp] theorem State.setXState_inputs : (s.setXState v).inputs = s.inputs := rfl
@[simp] theorem State.setXState_strict : (s.setXState v).strict = s.strict := rfl
@[simp] theorem State.setXState_busy : (s.setXState v).busy = (s.params.hasCorr && v == .busy) := rfl
@[simp] theorem State.setXState_sat (n : Nat) : (s.setXState v).sat n = s.sat n := rfl
@[simp] theorem State.setXState_pullCount (n : Nat) : (s.setXState v).pullCount n = s.pullCount n := rfl
end

section
variable (v : Nat)
@[simp] theorem State.setElapsed_params : (s.setElapsed v).params = s.params := rfl
@[simp] theorem State.setElapsed_acc : (s.setElapsed v).acc = s.acc := rfl
@[simp] theorem State.setElapsed_cfg : (s.setElapsed v).cfg = s.cfg := rfl
@[simp] theorem State.setElapsed_xState : (s.setElapsed v).xState = s.xState := rfl
@[simp] theorem State.setElapsed_xElapsed : (s.setElapsed v).xElapsed = v := rfl
@[simp] theorem State.setElapsed_xTimeout : (s.setElapsed v).xTimeout = s.xTimeout := rfl
@[simp] theorem State.setElapsed_xPollcnt : (s.setElapsed v).xPollcnt = s.xPollcnt := rfl
@[simp] theorem State.setElapsed_xRes : (s.setElapsed v).xRes = s.xRes := rfl
@[simp] theorem State.setElapsed_tq : (s.setElapsed v).tq = s.tq := rfl
@[simp] theorem State.setElapsed_tOpen : (s.setElapsed v).tOpen = s.tOpen := rfl
@[simp] theorem State.setElapsed_txlog : (s.setElapsed v).txlog = s.txlog := rfl
@[simp] theorem State.setElapsed_resp : (s.setElapsed v).resp = s.resp := rfl
@[simp] theorem State.setElapsed_inputs : (s.setElapsed v).inputs = s.inputs := rfl
@[simp] theorem State.setElapsed_strict : (s.setElapsed v).strict = s.strict := rfl
@[simp] theorem State.setElapsed_busy : (s.setElapsed v).busy = s.busy := rfl
@[simp] theorem State.setElapsed_sat (n : Nat) : (s.setElapsed v).sat n = s.sat n := rfl
@[simp] theorem State.setElapsed_pullCount (n : Nat) : (s.setElapsed v).pullCount n = s.pullCount n := rfl
end

section
variable (v : Nat)
@[simp] theorem State.setTimeout_params : (s.setTimeout v).params = s.params := rfl
@[simp] theorem State.setTimeout_acc : (s.setTimeout v).acc = s.acc := rfl
@[simp] theorem State.setTimeout_cfg : (s.setTimeout v).cfg = s.cfg := rfl
@[simp] theorem State.setTimeout_xState : (s.setTimeout v).xState = s.xState := rfl
@[simp] theorem State.setTimeout_xElapsed : (s.setTimeout v).xElapsed = s.xElapsed := rfl
@[simp] theorem State.setTimeout_xTimeout : (s.setTimeout v).xTimeout = v := rfl
@[simp] theorem State.setTimeout_xPollcnt : (s.setTimeout v).xPollcnt = s.xPollcnt := rfl
@[simp] theorem State.setTimeout_xRes : (s.setTimeout v).xRes = s.xRes := rfl
@[simp] theorem State.setTimeout_tq : (s.setTimeout v).tq = s.tq := rfl
@[simp] theorem State.setTimeout_tOpen : (s.setTimeout v).tOpen = s.tOpen := rfl
@[simp] theorem State.setTimeout_txlog : (s.setTimeout v).txlog = s.txlog := rfl
@[simp] theorem State.setTimeout_resp : (s.setTimeout v).resp = s.resp := rfl
@[simp] theorem State.setTimeout_inputs : (s.setTimeout v).inputs = s.inputs := rfl
@[simp] theorem State.setTimeout_strict : (s.setTimeout v).strict = s.strict := rfl
@[simp] theorem State.setTimeout_busy : (s.setTimeout v).busy = s.busy := rfl
@[simp] theorem State.setTimeout_sat (n : Nat) : (s.setTimeout v).sat n = s.sat n := rfl
@[simp] theorem State.setTimeout_pullCount (n : Nat) : (s.setTimeout v).pullCount n = s.pullCount n := rfl
end

section
variable (v : Nat)
@[simp] theorem State.setPollcnt_params : (s.setPollcnt v).params = s.params := rfl
@[simp] theorem State.setPollcnt_acc : (s.setPollcnt v).acc = s.acc := rfl
@[simp] theorem State.setPollcnt_cfg : (s.setPollcnt v).cfg = s.cfg := rfl
@[simp] theorem State.setPollcnt_xState : (s.setPollcnt v).xState = s.xState := rfl
@[simp] theorem State.setPollcnt_xElapsed : (s.setPollcnt v).xElapsed = s.xElapsed := rfl
@[simp] theorem State.setPollcnt_xTimeout : (s.setPollcnt v).xTimeout = s.xTimeout := rfl
@[simp] theorem State.setPollcnt_xPollcnt : (s.setPollcnt v).xPollcnt = v := rfl
@[simp] theorem State.setPollcnt_xRes : (s.setPollcnt v).xRes = s.xRes := rfl
@[simp] theorem State.setPollcnt_tq : (s.setPollcnt v).tq = s.tq := rfl
@[simp] theorem State.setPollcnt_tOpen : (s.setPollcnt v).tOpen = s.tOpen := rfl
@[simp] theorem State.setPollcnt_txlog : (s.setPollcnt v).txlog = s.txlog := rfl
@[simp] theorem State.setPollcnt_resp : (s.setPollcnt v).resp = s.resp := rfl
@[simp] theorem State.setPollcnt_inputs : (s.setPollcnt v).inputs = s.inputs := rfl
@[simp] theorem State.setPollcnt_strict : (s.setPollcnt v).strict = s.strict := rfl
@[simp] theorem State.setPollcnt_busy : (s.setPollcnt v).busy = s.busy := rfl
@[simp] theorem State.setPollcnt_sat (n : Nat) : (s.setPollcnt v).sat n = s.sat n := rfl
@[simp] theorem State.setPollcnt_pullCount (n : Nat) : (s.setPollcnt v).pullCount n = s.pullCount n := rfl
end

section
variable (v : XRes)
@[simp] theorem State.setRes_params : (s.setRes v).params = s.params := rfl
@[simp] theorem State.setRes_acc : (s.setRes v).acc = s.acc := rfl
@[simp] theorem State.setRes_cfg : (s.setRes v).cfg = s.cfg := rfl
@[simp] theorem State.setRes_xState : (s.setRes v).xState = s.xState := rfl
@[simp] theorem State.setRes_xElapsed : (s.setRes v).xElapsed = s.xElapsed := rfl
@[simp] theorem State.setRes_xTimeout : (s.setRes v).xTimeout = s.xTimeout := rfl
@[simp] theorem State.setRes_xPollcnt : (s.setRes v).xPollcnt = s.xPollcnt := rfl
@[simp] theorem State.setRes_xRes : (s.setRes v).xRes = v := rfl
@[simp] theorem State.setRes_tq : (s.setRes v).tq = s.tq := rfl
@[simp] theorem State.setRes_tOpen : (s.setRes v).tOpen = s.tOpen := rfl
@[simp] theorem State.setRes_txlog : (s.setRes v).txlog = s.txlog := rfl
@[simp] theorem State.setRes_resp : (s.setRes v).resp = s.resp := rfl
@[simp] theorem State.setRes_inputs : (s.setRes v).inputs = s.inputs := rfl
@[simp] theorem State.setRes_strict : (s.setRes v).strict = s.strict := rfl
@[simp] theorem State.setRes_busy : (s.setRes v).busy = s.busy := rfl
@[simp] theorem State.setRes_sat (n : Nat) : (s.setRes v).sat n = s.sat n := rfl
@[simp] theorem State.setRes_pullCount (n : Nat) : (s.setRes v).pullCount n = s.pullCount n := rfl
end

section
variable (v : Bytes)
@[simp] theorem State.setTq_params : (s.setTq v).params = s.params := rfl
@[simp] theorem State.setTq_acc : (s.setTq v).acc = s.acc := rfl
@[simp] theorem State.setTq_cfg : (s.setTq v).cfg = s.cfg := rfl
@[simp] theorem State.setTq_xState : (s.setTq v).xState = s.xState := rfl
@[simp] theorem State.setTq_xElapsed : (s.setTq v).xElapsed = s.xElapsed := rfl
@[simp] theorem State.setTq_xTimeout : (s.setTq v).xTimeout = s.xTimeout := rfl
@[simp] theorem State.setTq_xPollcnt : (s.setTq v).xPollcnt = s.xPollcnt := rfl
@[simp] theorem State.setTq_xRes : (s.setTq v).xRes = s.xRes := rfl
@[simp] theorem State.setTq_tq : (s.setTq v).tq = v := rfl
@[simp] theorem State.setTq_tOpen : (s.setTq v).tOpen = s.tOpen := rfl
@[simp] theorem State.setTq_txlog : (s.setTq v).txlog = s.txlog := rfl
@[simp] theorem State.setTq_resp : (s.setTq v).resp = s.resp := rfl
@[simp] theorem State.setTq_inputs : (s.setTq v).inputs = s.inputs := rfl
@[simp] theorem State.setTq_strict : (s.setTq v).strict = s.strict := rfl
@[simp] theorem State.setTq_busy : (s.setTq v).busy = s.busy := rfl
@[simp] theorem State.setTq_sat (n : Nat) : (s.setTq v).sat n = s.sat n := rfl
end

section
variable (v : Bool)
@[simp] theorem State.setOpen_params : (s.setOpen v).params = s.params := rfl
@[simp] theorem State.setOpen_acc : (s.setOpen v).acc = s.acc := rfl
@[simp] theorem State.setOpen_cfg : (s.setOpen v).cfg = s.cfg := rfl
@[simp] theorem State.setOpen_xState : (s.setOpen v).xState = s.xState := rfl
@[simp] theorem State.setOpen_xElapsed : (s.setOpen v).xElapsed = s.xElapsed := rfl
@[simp] theorem State.setOpen_xTimeout : (s.setOpen v).xTimeout = s.xTimeout := rfl
@[simp] theorem State.setOpen_xPollcnt : (s.setOpen v).xPollcnt = s.xPollcnt := rfl
@[simp] theorem State.setOpen_xRes : (s.setOpen v).xRes = s.xRes := rfl
@[simp] theorem State.setOpen_tq : (s.setOpen v).tq = s.tq := rfl
@[simp] theorem State.setOpen_tOpen : (s.setOpen v).tOpen = v := rfl
@[simp] theorem State.setOpen_txlog : (s.setOpen v).txlog = s.txlog := rfl
@[simp] theorem State.setOpen_resp : (s.setOpen v).resp = s.resp := rfl
@[simp] theorem State.setOpen_inputs : (s.setOpen v).inputs = s.inputs := rfl
@[simp] theorem State.setOpen_strict : (s.setOpen v).strict = s.strict := rfl
@[simp] theorem State.setOpen_busy : (s.setOpen v).busy = s.busy := rfl
@[simp] theorem State.setOpen_sat (n : Nat) : (s.setOpen v).sat n = s.sat n := rfl
@[simp] theorem State.setOpen_pullCount (n : Nat) : (s.setOpen v).pullCount n = s.pullCount n := rfl
end

section
variable (v : Bytes)
@[simp] theorem State.setTxlog_params : (s.setTxlog v).params = s.params := rfl
@[simp] theorem State.setTxlog_acc : (s.setTxlog v).acc = s.acc := rfl
@[simp] theorem State.setTxlog_cfg : (s.setTxlog v).cfg = s.cfg := rfl
@[simp] theorem State.setTxlog_xState : (s.setTxlog v).xState = s.xState := rfl
@[simp] theorem State.setTxlog_xElapsed : (s.setTxlog v).xElapsed = s.xElapsed := rfl
@[simp] theorem State.setTxlog_xTimeout : (s.setTxlog v).xTimeout = s.xTimeout := rfl
@[simp] theorem State.setTxlog_xPollcnt : (s.setTxlog v).xPollcnt = s.xPollcnt := rfl
@[simp] theorem State.setTxlog_xRes : (s.setTxlog v).xRes = s.xRes := rfl
@[simp] theorem State.setTxlog_tq : (s.setTxlog v).tq = s.tq := rfl
@[simp] theorem State.setTxlog_tOpen : (s.setTxlog v).tOpen = s.tOpen := rfl
@[simp] theorem State.setTxlog_txlog : (s.setTxlog v).txlog = v := rfl
@[simp] theorem State.setTxlog_resp : (s.setTxlog v).resp = s.resp := rfl
@[simp] theorem State.setTxlog_inputs : (s.setTxlog v).inputs = s.inputs := rfl
@[simp] theorem State.setTxlog_strict : (s.setTxlog v).strict = s.strict := rfl
@[simp] theorem State.setTxlog_busy : (s.setTxlog v).busy = s.busy := rfl
@[simp] theorem State.setTxlog_sat (n : Nat) : (s.setTxlog v).sat n = s.sat n := rfl
@[simp] theorem State.setTxlog_pullCount (n : Nat) : (s.setTxlog v).pullCount n = s.pullCount n := rfl
end

section
variable (v : Response)
@[simp] theorem State.respond_params : (s.respond v).params = s.params := rfl
@[simp] theorem State.respond_acc : (s.respond v).acc = s.acc := rfl
@[simp] theorem State.respond_cfg : (s.respond v).cfg = s.cfg := rfl
@[simp] theorem State.respond_xState : (s.respond v).xState = s.xState := rfl
@[simp] theorem State.respond_xElapsed : (s.respond v).xElapsed = s.xElapsed := rfl
@[simp] theorem State.respond_xTimeout : (s.respond v).xTimeout = s.xTimeout := rfl
@[simp] theorem State.respond_xPollcnt : (s.respond v).xPollcnt = s.xPollcnt := rfl
@[simp] theorem State.respond_xRes : (s.respond v).xRes = s.xRes := rfl
@[simp] theorem State.respond_tq : (s.respond v).tq = s.tq := rfl
@[simp] theorem State.respond_tOpen : (s.respond v).tOpen = s.tOpen := rfl
@[simp] theorem State.respond_txlog : (s.respond v).txlog = s.txlog := rfl
@[simp] theorem State.respond_resp : (s.respond v).resp = v := rfl
@[simp] theorem State.respond_inputs : (s.respond v).inputs = s.inputs := rfl
@[simp] theorem State.respond_strict : (s.respond v).strict = s.strict := rfl
@[simp] theorem State.respond_busy : (s.respond v).busy = s.busy := rfl
@[simp] theorem State.respond_sat (n : Nat) : (s.respond v).sat n = s.sat n := rfl
@[simp] theorem State.respond_pullCount (n : Nat) : (s.respond v).pullCount n = s.pullCount n := rfl
end

section
variable (v : List Input)
@[simp] theorem State.setInputs_params : (s.setInputs v).params = s.params := rfl
@[simp] theorem State.setInputs_acc : (s.setInputs v).acc = s.acc := rfl
@[simp] theorem State.setInputs_cfg : (s.setInputs v).cfg = s.cfg := rfl
@[simp] theorem State.setInputs_xState : (s.setInputs v).xState = s.xState := rfl
@[simp] theorem State.setInputs_xElapsed : (s.setInputs v).xElapsed = s.xElapsed := rfl
@[simp] theorem State.setInputs_xTimeout : (s.setInputs v).xTimeout = s.xTimeout := rfl
@[simp] theorem State.setInputs_xPollcnt : (s.setInputs v).xPollcnt = s.xPollcnt := rfl
@[simp] theorem State.setInputs_xRes : (s.setInputs v).xRes = s.xRes := rfl
@[simp] theorem State.setInputs_tq : (s.setInputs v).tq = s.tq := rfl
@[simp] theorem State.setInputs_tOpen : (s.setInputs v).tOpen = s.tOpen := rfl
@[simp] theorem State.setInputs_txlog : (s.setInputs v).txlog = s.txlog := rfl
@[simp] theorem State.setInputs_resp : (s.setInputs v).resp = s.resp := rfl
@[simp] theorem State.setInputs_inputs : (s.setInputs v).inputs = v := rfl
@[simp] theorem State.setInputs_strict : (s.setInputs v).strict = s.strict := rfl
@[simp] theorem State.setInputs_busy : (s.setInputs v).busy = s.busy := rfl
@[simp] theorem State.setInputs_sat (n : Nat) : (s.setInputs v).sat n = s.sat n := rfl
@[simp] theorem State.setInputs_pullCount (n : Nat) : (s.setInputs v).pullCount n = s.pullCount n := rfl
end

end Sys2Proof.Machine
end

