-- ==== Sys2Proof/Laws/Ops.lean ====
section
/-! SUPPORT. What each shared operation can do, each said once; the provers cite these. -/

namespace Sys2Proof.Machine

/-! ## Counts -/

/-- What FILL and an attempt pull is asked for, is there, and fits. -/
theorem pullCount_le (s : State) (max : Nat) :
    s.pullCount max ≤ max ∧ s.pullCount max ≤ s.tq.length ∧
      ∀ cap, s.params.accCap = some cap → s.pullCount max ≤ cap - s.acc.length := by
  unfold State.pullCount limitToRoom
  cases s.params.accCap <;> (simp; try omega)

theorem sat_lt (s : State) (v : Nat) : s.sat v < 2 ^ s.params.timerW := by
  have := Nat.two_pow_pos s.params.timerW
  unfold State.sat; omega

/-! ## The bytes -/

@[simp] theorem pullOp_acc (s : State) (n : Nat) : (pullOp s n).acc = s.acc ++ s.tq.take n := rfl
@[simp] theorem pullOp_tq (s : State) (n : Nat) : (pullOp s n).tq = s.tq.drop n := rfl
@[simp] theorem writeOp_txlog (s : State) (bytes : Bytes) : (writeOp s bytes).txlog = s.txlog ++ bytes := rfl
@[simp] theorem dropOp_acc (s : State) (n : Nat) : (dropOp s n).acc = s.acc.drop n := rfl

/-- Pulling moves bytes, it makes and loses none. -/
theorem pullOp_conserves (s : State) (n : Nat) : (pullOp s n).acc ++ (pullOp s n).tq = s.acc ++ s.tq := by
  simp

/-- Pulling what `pullCount` allows keeps the accumulator within its capacity. -/
theorem pullOp_keeps_capacity (s : State) (max cap : Nat) (hcap : s.params.accCap = some cap)
    (h : s.acc.length ≤ cap) : (pullOp s (s.pullCount max)).acc.length ≤ cap := by
  have := (pullCount_le s max).2.2 cap hcap
  simp; omega

/-- Resynchronising leaves an end of the buffer. -/
theorem resync_suffix (buf : Bytes) (strict : Bool) : ∃ dropped, buf = dropped ++ resync buf strict := by
  rcases resync_cases buf strict with ⟨_, h⟩ | ⟨b, rest, rfl, _, _, h⟩
  · exact ⟨[], by simp [h]⟩
  · refine ⟨b :: rest.take (bytesBeforeSync rest), ?_⟩
    rw [h, List.cons_append, List.take_append_drop]

/-! ## Host operations -/

/-- SEND refuses, changing nothing else, or writes one frame whose payload fits to an open transport. -/
theorem sendOp_cases (cmd : Byte) (payload : Bytes) (s : State) :
    (∃ st, sendOp cmd payload s = s.respond (.status st) ∧ st ≠ .ok) ∨
    (s.busy = false ∧ payload.length ≤ 255 ∧ s.tOpen = true ∧
      sendOp cmd payload s = (s.setTxlog (s.txlog ++ encodeFrame cmd payload)).respond (.status .ok)) := by
  unfold sendOp payloadTooLong refuse
  by_cases hb : s.busy = true
  · exact .inl ⟨.busy, by simp [hb]⟩
  · by_cases hp : 255 < payload.length
    · exact .inl ⟨.payloadTooLong, by simp [hb, hp]⟩
    · by_cases ho : s.tOpen = false
      · exact .inl ⟨.transportUnavailable, by simp [hb, hp, ho]⟩
      · exact .inr ⟨by simpa using hb, by omega, by simpa using ho, by simp [hb, hp, ho, writeOp]⟩

/-- FILL refuses, changing nothing else, or pulls. -/
theorem fillOp_cases (max : Nat) (s : State) :
    (∃ st, fillOp max s = s.respond (.status st) ∧ st ≠ .ok) ∨
    (s.busy = false ∧ s.tOpen = true ∧
      fillOp max s = (pullOp s (s.pullCount max)).respond (.filled (s.pullCount max))) := by
  unfold fillOp refuse
  by_cases hb : s.busy = true
  · exact .inl ⟨.busy, by simp [hb]⟩
  · by_cases ho : s.tOpen = false
    · exact .inl ⟨.transportUnavailable, by simp [hb, ho]⟩
    · exact .inr ⟨by simpa using hb, by simpa using ho, by simp [hb, ho]⟩

/-- DROP refuses, changing nothing else, or removes no more than is held. -/
theorem dropHostOp_cases (n : Nat) (s : State) :
    (∃ st, dropHostOp n s = s.respond (.status st) ∧ st ≠ .ok) ∨
    (s.busy = false ∧ n ≤ s.acc.length ∧ dropHostOp n s = (s.setAcc (s.acc.drop n)).respond (.status .ok)) := by
  unfold dropHostOp refuse
  by_cases hb : s.busy = true
  · exact .inl ⟨.busy, by simp [hb]⟩
  · by_cases hn : s.acc.length < n
    · exact .inl ⟨.badDrop, by simp [hb, hn]⟩
    · exact .inr ⟨by simpa using hb, by omega, by simp [hb, hn, dropOp]⟩

/-- FLUSH refuses, changing nothing else, or empties the accumulator. -/
theorem flushOp_cases (s : State) :
    (s.busy = true ∧ flushOp s = s.respond (.status .busy)) ∨
    (s.busy = false ∧ flushOp s = (s.setAcc []).respond (.status .ok)) := by
  unfold flushOp refuse
  cases hb : s.busy <;> simp

/-- CFGWR refuses, changing nothing else, or writes `CFG`. -/
theorem cfgwrOp_cases (value : Byte) (s : State) :
    (s.busy = true ∧ cfgwrOp value s = s.respond (.status .busy)) ∨
    (s.busy = false ∧ cfgwrOp value s = (s.setCfg (cfgOf value)).respond (.status .ok)) := by
  unfold cfgwrOp refuse
  cases hb : s.busy <;> simp

/-- A received frame is refused, changing nothing else, or is judged and removed. -/
theorem receiveOp_cases (f : WireFrame) (s : State) :
    (∃ st, receiveOp f s = s.respond (.status st) ∧ st ≠ .ok) ∨
    (s.busy = false ∧ frameLength f.payload ≤ s.acc.length ∧
      receiveOp f s = (s.setAcc (s.acc.drop (frameLength f.payload))).respond (.verdict (judge s.strict f))) := by
  unfold receiveOp refuse
  by_cases hb : s.busy = true
  · exact .inl ⟨.busy, by simp [hb]⟩
  · by_cases hn : s.acc.length < frameLength f.payload
    · exact .inl ⟨.badDrop, by simp [hb, hn]⟩
    · exact .inr ⟨by simpa using hb, by omega, by simp [hb, hn, dropOp]⟩

/-! ## The exchange -/

/-- XCHG refuses, changing nothing else, or starts the exchange. -/
theorem xchgOp_cases (cmd : Byte) (payload : Bytes) (timeout : Nat) (s : State) :
    (∃ st, xchgOp cmd payload timeout s = s.respond (.status st) ∧ st ≠ .ok) ∨
    (s.params.hasCorr = true ∧ s.busy = false ∧ payload.length ≤ 255 ∧ s.tOpen = true ∧
      xchgOp cmd payload timeout s = (startExchange cmd payload timeout s).respond (.status .ok)) := by
  unfold xchgOp payloadTooLong badOp refuse
  by_cases hc : s.params.hasCorr = false
  · exact .inl ⟨.badOp, by simp [hc]⟩
  · by_cases hb : s.busy = true
    · exact .inl ⟨.busy, by simp [hc, hb]⟩
    · by_cases hp : 255 < payload.length
      · exact .inl ⟨.payloadTooLong, by simp [hc, hb, hp]⟩
      · by_cases ho : s.tOpen = false
        · exact .inl ⟨.transportUnavailable, by simp [hc, hb, hp, ho]⟩
        · exact .inr ⟨by simpa using hc, by simpa using hb, by omega, by simpa using ho,
            by simp [hc, hb, hp, ho]⟩

/-- What a started exchange holds, field by field. -/
theorem startExchange_eq (cmd : Byte) (payload : Bytes) (timeout : Nat) (s : State) :
    startExchange cmd payload timeout s =
      { s with acc := [], txlog := s.txlog ++ encodeFrame cmd payload, xElapsed := 0, xTimeout := timeout,
               xPollcnt := 0, xRes := XRes.bare .none, xState := .busy } := rfl

/-- What an ended exchange holds: its result, and idle. -/
theorem endExchange_eq (res : XRes) (s : State) : endExchange res s = { s with xRes := res, xState := .idle } := rfl

/-- Steps A2 and A3 change the accumulator and the transport's pending bytes only. -/
theorem pollOp_eq (s : State) :
    pollOp s = { s with acc := resync (s.acc ++ s.tq.take (s.pullCount s.tq.length)) s.strict,
                        tq := s.tq.drop (s.pullCount s.tq.length) } := rfl

/-- Counting a tick writes `X.ELAPSED` only. -/
theorem countTick_eq (s : State) : countTick s = { s with xElapsed := s.sat (s.xElapsed + 1) } := rfl

/-- TICK does one of three things: nothing, count, or attempt. -/
theorem tickOp_cases (s : State) :
    (s.busy = false ∧ tickOp s = s) ∨
    (s.busy = true ∧ 0 < s.xPollcnt ∧
      tickOp s = { s with xPollcnt := s.xPollcnt - 1, xElapsed := s.sat (s.xElapsed + 1) }) ∨
    (s.busy = true ∧ s.xPollcnt = 0 ∧ tickOp s = attemptOp s) := by
  unfold tickOp
  cases hb : s.busy
  · simp
  · by_cases hp : 0 < s.xPollcnt
    · exact .inr (.inl ⟨rfl, hp, by simp [hp]; rfl⟩)
    · exact .inr (.inr ⟨rfl, by omega, by simp [hp]⟩)

/-- An attempt finds the transport closed, or concludes on the verdict of what it pulled. -/
theorem attemptOp_cases (s : State) :
    (s.tOpen = false ∧ attemptOp s = countTick (endExchange (XRes.bare .transport) s)) ∨
    (s.tOpen = true ∧ attemptOp s = countTick (concludeOp (decodeBuffer (pollOp s).acc s.strict) (pollOp s))) := by
  unfold attemptOp
  cases ho : s.tOpen <;> simp

/-- What reset leaves, field by field. -/
theorem resetOp_eq (s : State) :
    resetOp s = { s with acc := [], cfg := 0x01, xState := .idle, xElapsed := 0, xTimeout := 0, xPollcnt := 0,
                         xRes := XRes.bare .none } := rfl

/-! ## The next input -/

/-- RECV ends at once, with Incomplete or Busy, or drops a front without a sync byte and then ends with Incomplete
or comes to a frame. -/
theorem fetchReceived_cases (s : State) :
    (decodeBuffer s.acc s.strict = .incomplete ∧ fetchReceived s = .done (s.respond (.verdict .incomplete))) ∨
    (decodeBuffer s.acc s.strict ≠ .incomplete ∧ s.busy = true ∧ fetchReceived s = .done (refuse s .busy)) ∨
    (decodeBuffer s.acc s.strict ≠ .incomplete ∧ s.busy = false ∧
      decodeBuffer (resync s.acc s.strict) s.strict = .incomplete ∧
      fetchReceived s = .done ((s.setAcc (resync s.acc s.strict)).respond (.verdict .incomplete))) ∨
    (decodeBuffer s.acc s.strict ≠ .incomplete ∧ s.busy = false ∧
      decodeBuffer (resync s.acc s.strict) s.strict ≠ .incomplete ∧
      fetchReceived s = .run (.received (resync s.acc s.strict)) (s.setAcc (resync s.acc s.strict))) := by
  unfold fetchReceived
  by_cases h1 : decodeBuffer s.acc s.strict = .incomplete
  · exact .inl ⟨h1, by simp [h1]⟩
  · cases hb : s.busy
    · by_cases h2 : decodeBuffer (resync s.acc s.strict) s.strict = .incomplete
      · exact .inr (.inr (.inl ⟨h1, rfl, h2, by simp [h1, h2]⟩))
      · exact .inr (.inr (.inr ⟨h1, rfl, h2, by simp [h1, h2]⟩))
    · exact .inr (.inl ⟨h1, rfl, by simp [h1]⟩)

end Sys2Proof.Machine
end

