-- ==== Sys2Proof/Laws/PerInstr.lean ====
section
/-! SUPPORT. Said of every instruction, one lemma per constructor: its encoding carries the fixed bits of its row
of spec/opcode_table.json. -/

namespace Sys2Proof.Laws

/-- The header word of a frame's first four bytes (30_encoding.md R81). -/
def headerWord : Bytes → Nat
  | b0 :: b1 :: b2 :: b3 :: _ => b0.toNat * 2 ^ 24 + b1.toNat * 2 ^ 16 + b2.toNat * 2 ^ 8 + b3.toNat
  | _ => 0

/-- The table word of a code: a frame's header, or the host port's operation code; an event has none. -/
def tableWord : Code → Option Nat
  | .received bytes => some (headerWord bytes)
  | .sent bytes _ => some (headerWord bytes)
  | .port op _ => some op.toNat
  | .tick => none
  | .reset => none

/-- A word carries a value in bits `hi` to `lo`. -/
def carries (w : Nat) (bits : Nat × Nat × Nat) : Prop :=
  w / 2 ^ bits.2.1 % 2 ^ (bits.1 + 1 - bits.2.1) = bits.2.2

/-- The fixed bits of each row, as the opcode table's "fixed" has them: hi, lo, value. -/
def RowBits.fixed : Instr → List (Nat × Nat × Nat)
  | .frame _ _ _ _ => [(31, 24, 85)]
  | .ok _ _ _ => [(7, 0, 46), (31, 24, 85)]
  | .blockRecord _ _ _ _ => [(31, 24, 85)]
  | .arrowRecord _ _ _ _ => [(31, 24, 85)]
  | .info _ _ _ _ => [(31, 24, 85)]
  | .frameTx _ _ _ => [(31, 16, 0x5511)]
  | .knock _ => [(31, 0, 0x5511002C)]
  | .algorithmSelect _ _ _ => [(31, 24, 85)]
  | .blocksRequest _ _ => [(31, 24, 85)]
  | .arrowsRequest _ _ => [(31, 24, 85)]
  | .learn _ _ _ => [(31, 24, 85)]
  | .forget _ _ => [(31, 24, 85)]
  | .stat => [(3, 0, 0)]
  | .send _ _ => [(3, 0, 1)]
  | .fill _ => [(3, 0, 2)]
  | .decode => [(3, 0, 3)]
  | .drop _ => [(3, 0, 4)]
  | .flush => [(3, 0, 5)]
  | .cfgwr _ => [(3, 0, 6)]
  | .xchg _ _ _ => [(3, 0, 8)]
  | .xres => [(3, 0, 9)]
  | .reserved7 => [(3, 0, 7)]
  | .reservedA => [(3, 0, 10)]
  | .reservedB => [(3, 0, 11)]
  | .reservedC => [(3, 0, 12)]
  | .reservedD => [(3, 0, 13)]
  | .reservedE => [(3, 0, 14)]
  | .reservedF => [(3, 0, 15)]
  | .tick => []
  | .reset => []

/-- The encoding of an instruction carries its row's fixed bits. -/
def RowBits.Statement (i : Instr) : Prop :=
  ∀ w, tableWord (encode i) = some w → ∀ bits ∈ RowBits.fixed i, carries w bits

theorem headerWord_sync (b1 b2 b3 : Byte) (rest : Bytes) :
    carries (headerWord (Config.SYNC :: b1 :: b2 :: b3 :: rest)) (31, 24, 85) := by
  have := b1.isLt; have := b2.isLt; have := b3.isLt; have hs : Config.SYNC.toNat = 85 := rfl
  simp only [carries, headerWord, hs]; omega

theorem headerWord_addr (b2 b3 : Byte) (rest : Bytes) :
    carries (headerWord (Config.SYNC :: Config.ADDR :: b2 :: b3 :: rest)) (31, 16, 0x5511) := by
  have := b2.isLt; have := b3.isLt; have hs : Config.SYNC.toNat = 85 := rfl; have ha : Config.ADDR.toNat = 17 := rfl
  simp only [carries, headerWord, hs, ha]; omega

theorem headerWord_cmd (b0 b1 b2 b3 : Byte) (rest : Bytes) :
    carries (headerWord (b0 :: b1 :: b2 :: b3 :: rest)) (7, 0, b3.toNat) := by
  have := b3.isLt
  simp only [carries, headerWord]; omega

theorem RowBits.frame (addr : Byte) (cmd : Byte) (payload : Bytes) (ck : Byte) : RowBits.Statement (.frame addr cmd payload ck) := by
  intro w h bits hb
  simp only [encode, tableWord, Option.some.injEq] at h
  subst h
  simp only [RowBits.fixed, List.mem_singleton] at hb
  subst hb
  exact headerWord_sync _ _ _ _

theorem RowBits.ok (addr : Byte) (payload : Bytes) (ck : Byte) : RowBits.Statement (.ok addr payload ck) := by
  intro w h bits hb
  simp only [encode, tableWord, Option.some.injEq] at h
  subst h
  simp only [RowBits.fixed, List.mem_cons, List.not_mem_nil, or_false] at hb
  rcases hb with rfl | rfl
  · exact headerWord_cmd _ _ _ Config.CC_OK _
  · exact headerWord_sync _ _ _ _

theorem RowBits.blockRecord (addr : Byte) (cmd : Byte) (payload : Bytes) (ck : Byte) : RowBits.Statement (.blockRecord addr cmd payload ck) := by
  intro w h bits hb
  simp only [encode, tableWord, Option.some.injEq] at h
  subst h
  simp only [RowBits.fixed, List.mem_singleton] at hb
  subst hb
  exact headerWord_sync _ _ _ _

theorem RowBits.arrowRecord (addr : Byte) (cmd : Byte) (payload : Bytes) (ck : Byte) : RowBits.Statement (.arrowRecord addr cmd payload ck) := by
  intro w h bits hb
  simp only [encode, tableWord, Option.some.injEq] at h
  subst h
  simp only [RowBits.fixed, List.mem_singleton] at hb
  subst hb
  exact headerWord_sync _ _ _ _

theorem RowBits.info (addr : Byte) (cmd : Byte) (payload : Bytes) (ck : Byte) : RowBits.Statement (.info addr cmd payload ck) := by
  intro w h bits hb
  simp only [encode, tableWord, Option.some.injEq] at h
  subst h
  simp only [RowBits.fixed, List.mem_singleton] at hb
  subst hb
  exact headerWord_sync _ _ _ _

theorem RowBits.frameTx (cmd : Byte) (payload : Bytes) (via : Via) : RowBits.Statement (.frameTx cmd payload via) := by
  intro w h bits hb
  simp only [encode, tableWord, Option.some.injEq] at h
  subst h
  simp only [RowBits.fixed, List.mem_singleton] at hb
  subst hb
  exact headerWord_addr _ _ _

theorem RowBits.knock (via : Via) : RowBits.Statement (.knock via) := by
  intro w h bits hb
  simp only [encode, tableWord, Option.some.injEq] at h
  subst h
  simp only [RowBits.fixed, List.mem_singleton] at hb
  subst hb
  rfl

theorem RowBits.algorithmSelect (cmd : Byte) (payload : Bytes) (via : Via) : RowBits.Statement (.algorithmSelect cmd payload via) := by
  intro w h bits hb
  simp only [encode, tableWord, Option.some.injEq] at h
  subst h
  simp only [RowBits.fixed, List.mem_singleton] at hb
  subst hb
  exact headerWord_sync _ _ _ _

theorem RowBits.blocksRequest (cmd : Byte) (via : Via) : RowBits.Statement (.blocksRequest cmd via) := by
  intro w h bits hb
  simp only [encode, tableWord, Option.some.injEq] at h
  subst h
  simp only [RowBits.fixed, List.mem_singleton] at hb
  subst hb
  exact headerWord_sync _ _ _ _

theorem RowBits.arrowsRequest (cmd : Byte) (via : Via) : RowBits.Statement (.arrowsRequest cmd via) := by
  intro w h bits hb
  simp only [encode, tableWord, Option.some.injEq] at h
  subst h
  simp only [RowBits.fixed, List.mem_singleton] at hb
  subst hb
  exact headerWord_sync _ _ _ _

theorem RowBits.learn (cmd : Byte) (id : BitVec 16) (via : Via) : RowBits.Statement (.learn cmd id via) := by
  intro w h bits hb
  simp only [encode, tableWord, Option.some.injEq] at h
  subst h
  simp only [RowBits.fixed, List.mem_singleton] at hb
  subst hb
  exact headerWord_sync _ _ _ _

theorem RowBits.forget (cmd : Byte) (via : Via) : RowBits.Statement (.forget cmd via) := by
  intro w h bits hb
  simp only [encode, tableWord, Option.some.injEq] at h
  subst h
  simp only [RowBits.fixed, List.mem_singleton] at hb
  subst hb
  exact headerWord_sync _ _ _ _

theorem RowBits.stat : RowBits.Statement (.stat) := by
  intro w h bits hb
  simp only [encode, tableWord, Option.some.injEq] at h
  subst h
  simp only [RowBits.fixed, List.mem_singleton] at hb
  subst hb
  rfl

theorem RowBits.send (cmd : Byte) (payload : Bytes) : RowBits.Statement (.send cmd payload) := by
  intro w h bits hb
  simp only [encode, tableWord, Option.some.injEq] at h
  subst h
  simp only [RowBits.fixed, List.mem_singleton] at hb
  subst hb
  rfl

theorem RowBits.fill (max : Nat) : RowBits.Statement (.fill max) := by
  intro w h bits hb
  simp only [encode, tableWord, Option.some.injEq] at h
  subst h
  simp only [RowBits.fixed, List.mem_singleton] at hb
  subst hb
  rfl

theorem RowBits.decode : RowBits.Statement (.decode) := by
  intro w h bits hb
  simp only [encode, tableWord, Option.some.injEq] at h
  subst h
  simp only [RowBits.fixed, List.mem_singleton] at hb
  subst hb
  rfl

theorem RowBits.drop (n : Nat) : RowBits.Statement (.drop n) := by
  intro w h bits hb
  simp only [encode, tableWord, Option.some.injEq] at h
  subst h
  simp only [RowBits.fixed, List.mem_singleton] at hb
  subst hb
  rfl

theorem RowBits.flush : RowBits.Statement (.flush) := by
  intro w h bits hb
  simp only [encode, tableWord, Option.some.injEq] at h
  subst h
  simp only [RowBits.fixed, List.mem_singleton] at hb
  subst hb
  rfl

theorem RowBits.cfgwr (value : Byte) : RowBits.Statement (.cfgwr value) := by
  intro w h bits hb
  simp only [encode, tableWord, Option.some.injEq] at h
  subst h
  simp only [RowBits.fixed, List.mem_singleton] at hb
  subst hb
  rfl

theorem RowBits.xchg (cmd : Byte) (payload : Bytes) (timeout : Nat) : RowBits.Statement (.xchg cmd payload timeout) := by
  intro w h bits hb
  simp only [encode, tableWord, Option.some.injEq] at h
  subst h
  simp only [RowBits.fixed, List.mem_singleton] at hb
  subst hb
  rfl

theorem RowBits.xres : RowBits.Statement (.xres) := by
  intro w h bits hb
  simp only [encode, tableWord, Option.some.injEq] at h
  subst h
  simp only [RowBits.fixed, List.mem_singleton] at hb
  subst hb
  rfl

theorem RowBits.reserved7 : RowBits.Statement (.reserved7) := by
  intro w h bits hb
  simp only [encode, tableWord, Option.some.injEq] at h
  subst h
  simp only [RowBits.fixed, List.mem_singleton] at hb
  subst hb
  rfl

theorem RowBits.reservedA : RowBits.Statement (.reservedA) := by
  intro w h bits hb
  simp only [encode, tableWord, Option.some.injEq] at h
  subst h
  simp only [RowBits.fixed, List.mem_singleton] at hb
  subst hb
  rfl

theorem RowBits.reservedB : RowBits.Statement (.reservedB) := by
  intro w h bits hb
  simp only [encode, tableWord, Option.some.injEq] at h
  subst h
  simp only [RowBits.fixed, List.mem_singleton] at hb
  subst hb
  rfl

theorem RowBits.reservedC : RowBits.Statement (.reservedC) := by
  intro w h bits hb
  simp only [encode, tableWord, Option.some.injEq] at h
  subst h
  simp only [RowBits.fixed, List.mem_singleton] at hb
  subst hb
  rfl

theorem RowBits.reservedD : RowBits.Statement (.reservedD) := by
  intro w h bits hb
  simp only [encode, tableWord, Option.some.injEq] at h
  subst h
  simp only [RowBits.fixed, List.mem_singleton] at hb
  subst hb
  rfl

theorem RowBits.reservedE : RowBits.Statement (.reservedE) := by
  intro w h bits hb
  simp only [encode, tableWord, Option.some.injEq] at h
  subst h
  simp only [RowBits.fixed, List.mem_singleton] at hb
  subst hb
  rfl

theorem RowBits.reservedF : RowBits.Statement (.reservedF) := by
  intro w h bits hb
  simp only [encode, tableWord, Option.some.injEq] at h
  subst h
  simp only [RowBits.fixed, List.mem_singleton] at hb
  subst hb
  rfl

theorem RowBits.tick : RowBits.Statement (.tick) := by
  intro w h; simp [encode, tableWord] at h

theorem RowBits.reset : RowBits.Statement (.reset) := by
  intro w h; simp [encode, tableWord] at h

end Sys2Proof.Laws
end

