-- ==== Sys2Proof/Tests/Slice0.lean ====
section
/-! SUPPORT. Tests, and for each statement with hypotheses a witness that meets them. Expected values come from
95_test_vectors.md (V numbers) or are worked out from the rule a test names. -/

namespace Sys2Proof.Tests

open Sys2Proof Sys2Proof.Machine

/-! ## Helpers -/

/-- The state a step answers; the reset state where it answers none. -/
def after (o : Host.Outcome State Fault Refusal) : State :=
  match o with
  | .next t => t
  | _ => State.reset

/-- The refusal a step answers, if any. -/
def refusal (o : Host.Outcome State Fault Refusal) : Option Refusal :=
  match o with
  | .refused r => some r
  | _ => none

/-- What an instruction returns in a state. -/
def answer (i : Instr) (s : State) : Response := (after (exec i s)).resp

/-- The state after these inputs, one step each. -/
def play : List Input → State → State
  | [], s => s
  | i :: is, s => play is (after (step (s.setInputs [i])))

/-- Reset, with these bytes held. -/
def held (acc : Bytes) : State := State.reset.setAcc acc

/-- Reset, with these bytes pending in the transport. -/
def pending (tq : Bytes) : State := State.reset.setTq tq

/-- Reset, without a correlator. -/
def codecOnly : State := { State.reset with params := { Config.exampleParams with hasCorr := false } }

/-- V33: reset, then XCHG 0x2C, [], with this timeout. -/
def inFlight (timeout : Nat) : State := after (exec (.xchg 0x2C [] timeout) State.reset)

/-- A block in flight that waits for its next attempt. -/
def waiting : State := (inFlight 3).setPollcnt 1

/-- An instance that was given all eight command codes. -/
def named : Vocabulary :=
  { algorithm := some 0x60, blocks := some 0x61, arrows := some 0x62, learn := some 0x70, forget := some 0x63,
    retBlock := some 0x71, retArrow := some 0x72, retInfo := some 0x73 }

/-- The example parameters with the command codes given. -/
def namedParams : Params := { Config.exampleParams with vocab := named }

def port (op : BitVec 4) : Code := .port op HostArgs.zero

/-! ## Well-formedness: an ill-formed term for each check -/

theorem test_wf_refuses_a_received_payload_of_256 :
    Instr.wf namedParams (.ok 0x11 (List.replicate 256 0) 0) = false := by decide +kernel
theorem test_wf_takes_a_received_payload_of_255 :
    Instr.wf namedParams (.ok 0x11 (List.replicate 255 0) 0) = true := by decide +kernel
theorem test_wf_refuses_a_frame_payload_of_256 :
    Instr.wf namedParams (.frame 0x11 0x00 (List.replicate 256 0) 0) = false := by decide +kernel
theorem test_wf_refuses_a_sent_payload_of_256 :
    Instr.wf namedParams (.frameTx 0x00 (List.replicate 256 0) .send) = false := by decide +kernel
theorem test_wf_refuses_an_algorithm_payload_of_256 :
    Instr.wf namedParams (.algorithmSelect 0x60 (List.replicate 256 0) .send) = false := by decide +kernel
theorem test_wf_refuses_a_frame_that_is_an_ok : Instr.wf namedParams (.frame 0x11 0x2E [] 0) = false := by decide
theorem test_wf_refuses_a_frame_that_is_a_block_record :
    Instr.wf namedParams (.frame 0x11 0x71 [] 0) = false := by decide
theorem test_wf_refuses_a_block_record_with_another_code :
    Instr.wf namedParams (.blockRecord 0x11 0x72 [] 0) = false := by decide
theorem test_wf_refuses_an_arrow_record_with_another_code :
    Instr.wf namedParams (.arrowRecord 0x11 0x71 [] 0) = false := by decide
theorem test_wf_refuses_an_info_with_another_code : Instr.wf namedParams (.info 0x11 0x71 [] 0) = false := by decide
theorem test_wf_refuses_a_code_the_instance_was_not_given :
    Instr.wf Config.exampleParams (.blockRecord 0x11 0x71 [] 0) = false := by decide
theorem test_wf_refuses_a_sent_frame_that_is_a_knock : Instr.wf namedParams (.frameTx 0x2C [] .send) = false := by
  decide
theorem test_wf_takes_a_knock_code_with_a_payload : Instr.wf namedParams (.frameTx 0x2C [0] .send) = true := by decide
theorem test_wf_refuses_an_algorithm_select_with_another_code :
    Instr.wf namedParams (.algorithmSelect 0x61 [] .send) = false := by decide
theorem test_wf_refuses_a_blocks_request_with_another_code :
    Instr.wf namedParams (.blocksRequest 0x60 .send) = false := by decide
theorem test_wf_refuses_an_arrows_request_with_another_code :
    Instr.wf namedParams (.arrowsRequest 0x61 .send) = false := by decide
theorem test_wf_refuses_a_learn_with_another_code : Instr.wf namedParams (.learn 0x71 1 .send) = false := by decide
theorem test_wf_refuses_a_forget_with_another_code : Instr.wf namedParams (.forget 0x70 .send) = false := by decide
theorem test_wf_refuses_a_timeout_wider_than_the_timer :
    Instr.wf namedParams (.xchg 0x2C [] (2 ^ 32)) = false ∧ Instr.wf namedParams (.xchg 0x2C [] (2 ^ 32 - 1)) = true ∧
    Instr.wf namedParams (.knock (.exchange (2 ^ 32))) = false ∧
    Instr.wf namedParams (.knock (.exchange (2 ^ 32 - 1))) = true := by decide

theorem test_wf_refuses_a_record_payload_of_256 :
    (∀ i ∈ [Instr.blockRecord 0x11 0x71 (List.replicate 256 0) 0, .arrowRecord 0x11 0x72 (List.replicate 256 0) 0,
      .info 0x11 0x73 (List.replicate 256 0) 0], i.wf namedParams = false) := by decide +kernel
theorem test_wf_refuses_a_request_timeout_wider_than_the_timer :
    (∀ i ∈ [Instr.frameTx 0x01 [] (.exchange (2 ^ 32)), .algorithmSelect 0x60 [] (.exchange (2 ^ 32)),
      .blocksRequest 0x61 (.exchange (2 ^ 32)), .arrowsRequest 0x62 (.exchange (2 ^ 32)),
      .learn 0x70 1 (.exchange (2 ^ 32)), .forget 0x63 (.exchange (2 ^ 32))], i.wf namedParams = false) := by decide
/-- Codes given twice: the row the decoder tries first is the well-formed one. -/
def clashing : Params :=
  { Config.exampleParams with vocab :=
    { algorithm := some 0x2C, blocks := some 0x2C, arrows := some 0x2C, learn := some 0x2C, forget := some 0x2C,
      retBlock := some 0x2E, retArrow := some 0x2E, retInfo := some 0x2E } }
theorem test_wf_refuses_a_code_an_earlier_row_has :
    (∀ i ∈ [Instr.blockRecord 0 0x2E [] 0, .arrowRecord 0 0x2E [] 0, .info 0 0x2E [] 0, .algorithmSelect 0x2C [] .send,
      .blocksRequest 0x2C .send, .arrowsRequest 0x2C .send, .learn 0x2C 1 .send, .forget 0x2C .send],
      i.wf clashing = false) := by decide

/-! ## Decoding: every constructor from its encoding, written out (30_encoding.md R80, R81, R90, R95, R96) -/

theorem test_decode_frame : decode namedParams (.received [0x55, 0x22, 0x01, 0x9B, 0x07, 0xC5]) =
    .ok (.frame 0x22 0x9B [0x07] 0xC5) := by decide
theorem test_decode_ok : decode namedParams (.received [0x55, 0x11, 0x00, 0x2E, 0x3F]) =
    .ok (.ok 0x11 [] 0x3F) := by decide
theorem test_decode_block_record : decode namedParams (.received [0x55, 0x11, 0x03, 0x71, 0x01, 0x02, 0x03, 0x8B]) =
    .ok (.blockRecord 0x11 0x71 [1, 2, 3] 0x8B) := by decide
theorem test_decode_arrow_record : decode namedParams (.received [0x55, 0x11, 0x01, 0x72, 0x09, 0x8D]) =
    .ok (.arrowRecord 0x11 0x72 [9] 0x8D) := by decide
theorem test_decode_info : decode namedParams (.received [0x55, 0x11, 0x00, 0x73, 0x84]) =
    .ok (.info 0x11 0x73 [] 0x84) := by decide
theorem test_decode_frame_tx : decode namedParams (.sent [0x55, 0x11, 0x01, 0xFF, 0xEF] .send) =
    .ok (.frameTx 0xFF [0xEF] .send) := by decide
theorem test_decode_knock : decode namedParams (.sent [0x55, 0x11, 0x00, 0x2C] (.exchange 10)) =
    .ok (.knock (.exchange 10)) := by decide
theorem test_decode_algorithm_select : decode namedParams (.sent [0x55, 0x11, 0x01, 0x60, 0x05] .send) =
    .ok (.algorithmSelect 0x60 [5] .send) := by decide
theorem test_decode_blocks_request : decode namedParams (.sent [0x55, 0x11, 0x00, 0x61] .send) =
    .ok (.blocksRequest 0x61 .send) := by decide
theorem test_decode_arrows_request : decode namedParams (.sent [0x55, 0x11, 0x00, 0x62] .send) =
    .ok (.arrowsRequest 0x62 .send) := by decide
/-- V12: the id 0x0102 travels as 02 01. -/
theorem test_decode_learn : decode namedParams (.sent [0x55, 0x11, 0x02, 0x70, 0x02, 0x01] .send) =
    .ok (.learn 0x70 0x0102 .send) := by decide
theorem test_decode_forget : decode namedParams (.sent [0x55, 0x11, 0x00, 0x63] .send) =
    .ok (.forget 0x63 .send) := by decide
theorem test_decode_a_request_with_the_wrong_payload_is_a_frame :
    decode namedParams (.sent [0x55, 0x11, 0x01, 0x70, 0x02] .send) = .ok (.frameTx 0x70 [2] .send) := by decide
theorem test_decode_refuses_by_name :
    decode namedParams (.received [0x55, 0x11, 0x00, 0x2E]) = .error .short ∧
    decode namedParams (.received [0x01, 0x55, 0x03, 0x04, 0x05, 0x06]) = .error (.noSync 1) ∧
    decode namedParams (.received [0x55, 0x11, 0x05, 0x2C, 0x00]) = .error (.partialFrame 10) ∧
    decode namedParams (.sent [0x55, 0x22, 0x00, 0x2C] .send) = .error .notSendable ∧
    decode namedParams (.port 0x8 { HostArgs.zero with timeout := 2 ^ 32 }) = .error .timeoutTooWide ∧
    decode namedParams (.sent [0x55, 0x11, 0x00, 0x2C] (.exchange (2 ^ 32))) = .error .timeoutTooWide := by decide
theorem test_decode_the_codec_codes :
    decode namedParams (port 0x0) = .ok .stat ∧ decode namedParams (port 0x1) = .ok (.send 0 []) ∧
    decode namedParams (port 0x2) = .ok (.fill 0) ∧ decode namedParams (port 0x3) = .ok .decode ∧
    decode namedParams (port 0x4) = .ok (.drop 0) ∧ decode namedParams (port 0x5) = .ok .flush ∧
    decode namedParams (port 0x6) = .ok (.cfgwr 0) := by decide
theorem test_decode_the_correlator_codes :
    decode namedParams (port 0x8) = .ok (.xchg 0 [] 0) ∧ decode namedParams (port 0x9) = .ok .xres := by decide
theorem test_decode_the_reserved_codes :
    decode namedParams (port 0x7) = .ok .reserved7 ∧ decode namedParams (port 0xA) = .ok .reservedA ∧
    decode namedParams (port 0xB) = .ok .reservedB ∧ decode namedParams (port 0xC) = .ok .reservedC ∧
    decode namedParams (port 0xD) = .ok .reservedD ∧ decode namedParams (port 0xE) = .ok .reservedE ∧
    decode namedParams (port 0xF) = .ok .reservedF := by decide
theorem test_decode_the_events :
    decode namedParams .tick = .ok .tick ∧ decode namedParams .reset = .ok .reset := by decide

/-! ## Checksum, Encode, Decode -/

/-- V9a to V9e. -/
theorem test_checksum : checksum [] = 0 ∧ checksum [0x11, 0x00, 0x2C] = 0x3D ∧ checksum [0x11, 0x00, 0x2E] = 0x3F ∧
    checksum [0xFF, 0x01] = 0 ∧ checksum [0x80, 0x80] = 0 := by decide
/-- V9f, V13. -/
theorem test_checksum_of_the_largest_frame :
    checksum ([0x11, 0xFF, 0x7E] ++ List.replicate 255 0xFF) = 0x8F := by decide +kernel
/-- V10, V11, V12. -/
theorem test_encode : encodeFrame 0x00 [] = [0x55, 0x11, 0x00, 0x00, 0x11] ∧
    encodeFrame 0xFF [0xEF] = [0x55, 0x11, 0x01, 0xFF, 0xEF, 0x00] ∧
    encodeFrame 0x70 [0x02, 0x01] = [0x55, 0x11, 0x02, 0x70, 0x02, 0x01, 0x86] := by decide
/-- V2, the frame as the source prints it, strict and relaxed. -/
theorem test_decode_buffer_checksum :
    decodeBuffer [0x55, 0x11, 0x00, 0x2E, 0x2D] true = .checksumMismatch 5 0x3F 0x2D ∧
    decodeBuffer [0x55, 0x11, 0x00, 0x2E, 0x2D] false = .frame ⟨0x11, 0, 0x2E, [], 0x2D, false, 5⟩ := by decide
/-- V17a to V17f, V19a. -/
theorem test_decode_buffer_not_whole :
    decodeBuffer [] true = .incomplete ∧ decodeBuffer [0x00, 0x11, 0x00] true = .incomplete ∧
    decodeBuffer [1, 2, 3, 4] true = .incomplete ∧ decodeBuffer [1, 2, 3, 4, 5, 6] true = .desynchronized 6 ∧
    decodeBuffer [1, 0x55, 3, 4, 5, 6] true = .desynchronized 1 ∧
    decodeBuffer [1, 2, 3, 4, 0x55] true = .desynchronized 4 ∧
    decodeBuffer [0x55, 0x11, 0x05, 0x2C, 0x00] true = .incomplete := by decide
/-- V19b, V19c, V19d, V19e. -/
theorem test_decode_buffer_frames :
    decodeBuffer [0x55, 0x11, 0x00, 0x2E, 0x3F, 0x55] true = .frame ⟨0x11, 0, 0x2E, [], 0x3F, true, 5⟩ ∧
    decodeBuffer [0x55, 0x22, 0x00, 0x2E, 0x50] true = .frame ⟨0x22, 0, 0x2E, [], 0x50, true, 5⟩ ∧
    decodeBuffer [0x55, 0x11, 0x00, 0x9B, 0xAC] true = .frame ⟨0x11, 0, 0x9B, [], 0xAC, true, 5⟩ ∧
    decodeBuffer [0x55, 0x55, 0x11, 0x00, 0x2C, 0x3D] true = .incomplete := by decide
/-- V20 to V23, V25. -/
theorem test_decode_buffer_errors :
    decodeBuffer [0x54, 0x11, 0x02, 0x2C, 0xA5, 0x5A, 0x3E] true = .desynchronized 7 ∧
    decodeBuffer [0x55, 0x11, 0x03, 0x2C, 0xA5, 0x5A, 0x3E] true = .incomplete ∧
    decodeBuffer [0x55, 0x11, 0x00, 0x2C, 0xA5, 0x5A, 0x3E] true = .checksumMismatch 5 0x3D 0xA5 ∧
    decodeBuffer [0x55, 0x11, 0x00, 0x2C, 0x3D, 0x7B] true = .frame ⟨0x11, 0, 0x2C, [], 0x3D, true, 5⟩ ∧
    decodeBuffer [0x55, 0x11, 0x02, 0x2C, 0xA6, 0x59, 0x3E] true =
      .frame ⟨0x11, 2, 0x2C, [0xA6, 0x59], 0x3E, true, 7⟩ := by decide

/-! ## The received frames -/

theorem test_frame_is_delivered_and_removed :
    answer (.frame 0x22 0x2D [] 0x4F) (held [0x55, 0x22, 0x00, 0x2D, 0x4F, 0x99]) =
      .verdict (.frame ⟨0x22, 0, 0x2D, [], 0x4F, true, 5⟩) ∧
    (after (exec (.frame 0x22 0x2D [] 0x4F) (held [0x55, 0x22, 0x00, 0x2D, 0x4F, 0x99]))).acc = [0x99] := by decide
/-- V2. -/
theorem test_ok_with_a_bad_checksum_is_rejected_and_removed :
    answer (.ok 0x11 [] 0x2D) (held [0x55, 0x11, 0x00, 0x2E, 0x2D]) =
      .verdict (.checksumMismatch 5 0x3F 0x2D) ∧
    (after (exec (.ok 0x11 [] 0x2D) (held [0x55, 0x11, 0x00, 0x2E, 0x2D]))).acc = [] := by decide
/-- V30, the second frame. -/
theorem test_block_record :
    answer (.blockRecord 0x11 0x71 [1, 2, 3] 0x8B) (held [0x55, 0x11, 0x03, 0x71, 0x01, 0x02, 0x03, 0x8B]) =
      .verdict (.frame ⟨0x11, 3, 0x71, [1, 2, 3], 0x8B, true, 8⟩) := by decide
theorem test_arrow_record :
    answer (.arrowRecord 0x11 0x72 [9] 0x8D) (held [0x55, 0x11, 0x01, 0x72, 0x09, 0x8D]) =
      .verdict (.frame ⟨0x11, 1, 0x72, [9], 0x8D, true, 6⟩) := by decide
theorem test_info_in_relaxed_mode :
    answer (.info 0x11 0x73 [] 0x00) ((held [0x55, 0x11, 0x00, 0x73, 0x00]).setCfg 0) =
      .verdict (.frame ⟨0x11, 0, 0x73, [], 0x00, false, 5⟩) := by decide
/-- V30, V31. -/
theorem test_recv :
    (play [.recv] (held [0x55, 0x11, 0x00, 0x2E, 0x3F, 0x55, 0x11])).acc = [0x55, 0x11] ∧
    (play [.recv, .recv] (held [0x55, 0x11, 0x00, 0x2E, 0x3F, 0x55, 0x11])).resp = .verdict .incomplete ∧
    (play [.recv] (held [0x00, 0xFF, 0x13, 0x55, 0x11, 0x00, 0x2E, 0x3F])).resp =
      .verdict (.frame ⟨0x11, 0, 0x2E, [], 0x3F, true, 5⟩) := by decide

/-! ## The frames the block sends -/

theorem test_frame_tx : (after (exec (.frameTx 0xFF [0xEF] .send) State.reset)).txlog =
    [0x55, 0x11, 0x01, 0xFF, 0xEF, 0x00] := by decide
/-- V1. -/
theorem test_knock : (after (exec (.knock .send) State.reset)).txlog = [0x55, 0x11, 0x00, 0x2C, 0x3D] := by decide
theorem test_knock_exchanged : (after (exec (.knock (.exchange 4)) State.reset)).xTimeout = 4 ∧
    (after (exec (.knock (.exchange 4)) State.reset)).busy = true := by decide
theorem test_algorithm_select : (after (exec (.algorithmSelect 0x60 [5] .send) State.reset)).txlog =
    [0x55, 0x11, 0x01, 0x60, 0x05, 0x77] := by decide
theorem test_blocks_request : (after (exec (.blocksRequest 0x61 .send) State.reset)).txlog =
    [0x55, 0x11, 0x00, 0x61, 0x72] := by decide
theorem test_arrows_request : (after (exec (.arrowsRequest 0x62 .send) State.reset)).txlog =
    [0x55, 0x11, 0x00, 0x62, 0x73] := by decide
/-- V12. -/
theorem test_learn : (after (exec (.learn 0x70 0x0102 .send) State.reset)).txlog =
    [0x55, 0x11, 0x02, 0x70, 0x02, 0x01, 0x86] := by decide
theorem test_forget : (after (exec (.forget 0x63 .send) State.reset)).txlog =
    [0x55, 0x11, 0x00, 0x63, 0x74] := by decide

/-! ## Host operations -/

/-- V29c. -/
theorem test_stat : answer .stat State.reset = .stat ⟨false, 0, true, .none, 0, 0, 0⟩ := by decide
theorem test_stat_in_flight : answer .stat (inFlight 10) = .stat ⟨true, 0, true, .none, 0, 10, 0⟩ := by decide
/-- V14, V15. -/
theorem test_send_refusals : answer (.send 0x2C (List.replicate 256 0)) State.reset = .status .payloadTooLong ∧
    answer (.send 0x2C []) (State.reset.setOpen false) = .status .transportUnavailable := by decide +kernel
/-- V10, V16. -/
theorem test_send : (after (exec (.send 0x00 []) State.reset)).txlog = [0x55, 0x11, 0x00, 0x00, 0x11] ∧
    answer (.send 0x2C []) (inFlight 10) = .status .busy := by decide
/-- V26b. -/
theorem test_fill : answer (.fill 2) (pending [0x55, 0x11, 0x00]) = .filled 2 ∧
    (after (exec (.fill 2) (pending [0x55, 0x11, 0x00]))).acc = [0x55, 0x11] ∧
    (after (exec (.fill 2) (pending [0x55, 0x11, 0x00]))).tq = [0x00] := by decide
/-- V26d: the room left limits the count. -/
theorem test_fill_up_to_the_capacity :
    answer (.fill 1000) { pending (List.replicate 262 0) with
      params := { Config.exampleParams with accCap := some 260 } } = .filled 260 := by decide +kernel
theorem test_decode_operation : answer .decode (held [0x01, 0x02, 0x55, 0x55, 0x11, 0x00, 0x2C, 0x3D]) =
    .verdict (.desynchronized 2) := by decide
/-- V27a to V27d. -/
theorem test_drop : answer (.drop 3) (held [0x55, 0x11]) = .status .badDrop ∧
    (after (exec (.drop 2) (held [0x55, 0x11]))).acc = [] ∧ answer (.drop 0) (held []) = .status .ok ∧
    answer (.drop 1) (held []) = .status .badDrop := by decide
/-- V28; the transport's bytes stay. -/
theorem test_flush : (after (exec .flush ((held [0x55, 0x11, 0x07]).setTq [1]))).acc = [] ∧
    (after (exec .flush ((held [0x55, 0x11, 0x07]).setTq [1]))).tq = [1] := by decide
/-- V29a, V29b. -/
theorem test_cfgwr : (after (exec (.cfgwr 0xFE) State.reset)).cfg = 0x00 ∧
    (after (exec (.cfgwr 0xFF) (State.reset.setCfg 0))).cfg = 0x01 := by decide
/-- 30_encoding.md R96. -/
theorem test_reserved_codes :
    answer .reserved7 State.reset = .status .badOp ∧ answer .reservedA State.reset = .status .badOp ∧
    answer .reservedB State.reset = .status .badOp ∧ answer .reservedC State.reset = .status .badOp ∧
    answer .reservedD State.reset = .status .badOp ∧ answer .reservedE State.reset = .status .badOp ∧
    answer .reservedF (inFlight 3) = .status .badOp := by decide

/-! ## The correlator and the events -/

/-- V33. -/
theorem test_xchg : (inFlight 10).txlog = [0x55, 0x11, 0x00, 0x2C, 0x3D] ∧ (inFlight 10).busy = true ∧
    (inFlight 10).xTimeout = 10 ∧ (inFlight 10).xElapsed = 0 := by decide
/-- V34, V35. -/
theorem test_xchg_refusals : answer (.xchg 0x2C [] 10) (inFlight 10) = .status .busy ∧
    answer (.xchg 0x2C [] 3) (State.reset.setOpen false) = .status .transportUnavailable := by decide
/-- P3, its last exchange: a damaged OK, then the start of another frame. -/
theorem test_xres_after_a_rejected_frame :
    answer .xres (after (exec .tick ((inFlight 3).setTq [0x55, 0x11, 0x00, 0x2E, 0x2D, 0x55, 0x11]))) =
      .xres ⟨.cksum, 0x11, 0, 0x2E, [], 0x2D, false, 0x3F⟩ ∧
    (after (exec .tick ((inFlight 3).setTq [0x55, 0x11, 0x00, 0x2E, 0x2D, 0x55, 0x11]))).acc = [0x55, 0x11] := by
  decide
/-- 93 U13: without a correlator code 0x8 is reserved, whatever the timeout on the port (log 22). -/
theorem test_xchg_without_a_correlator : (after (step (codecOnly.setInputs
    [.host 0x8 { HostArgs.zero with timeout := 2 ^ 32 }]))).resp = .status .badOp := by decide
theorem test_xres_without_a_correlator : answer .xres codecOnly = .status .badOp := by decide
/-- V36: still in flight after 4 ticks, timed out after 5. -/
theorem test_tick_times_out :
    (play (List.replicate 4 .tick) (inFlight 3)).busy = true ∧
    (play (List.replicate 5 .tick) (inFlight 3)).xRes = XRes.bare .timeout ∧
    (play (List.replicate 5 .tick) (inFlight 3)).xElapsed = 5 := by decide
/-- V40: transport loss is seen at an attempt only. -/
theorem test_tick_transport_loss :
    (play [.tick, .closeLink, .tick] (inFlight 3)).busy = true ∧
    (play [.tick, .closeLink, .tick, .tick] (inFlight 3)).xRes.kind = .transport := by decide
/-- P5: reset abandons the exchange and leaves what was written. -/
theorem test_reset : (after (exec .reset ((inFlight 3).setCfg 0))).busy = false ∧
    (after (exec .reset ((inFlight 3).setCfg 0))).cfg = 0x01 ∧
    (after (exec .reset ((inFlight 3).setCfg 0))).txlog = [0x55, 0x11, 0x00, 0x2C, 0x3D] := by decide

/-! ## The table words run as the first instruction after reset -/

theorem test_step_runs_the_knock_word : (after (step (State.reset.withFetchWord 32 0x5511002C))).txlog =
    [0x55, 0x11, 0x00, 0x2C, 0x3D] := by decide
theorem test_step_runs_the_ok_word : (after (step (State.reset.withFetchWord 32 0x5500002E))).resp =
    .verdict (.checksumMismatch 5 0x2E 0x00) := by decide +kernel
theorem test_step_runs_a_host_code : (after (step (State.reset.withFetchWord 8 0xA))).resp = .status .badOp := by
  decide

/-! ## Witnesses: states and operands that meet each statement's hypotheses -/

/-- DecodeInvertsEncode: every row that is sent or received, at the edge of its operands. -/
theorem witness_decode_inverts_encode :
    (∀ i ∈ [Instr.frame 0xFF 0x2D (List.replicate 255 0xFF) 0, .ok 0 [] 0, .blockRecord 0x11 0x71 [1] 0,
      .arrowRecord 0x11 0x72 [] 0, .info 0x11 0x73 [] 0, .frameTx 0x2C (List.replicate 255 0) .send, .knock .send,
      .algorithmSelect 0x60 [] (.exchange 0), .blocksRequest 0x61 .send, .arrowsRequest 0x62 .send,
      .learn 0x70 0xFFFF (.exchange (2 ^ 32 - 1)), .forget 0x63 .send, .send 0 (List.replicate 256 0),
      .xchg 0 [] (2 ^ 32 - 1), .drop 1, .tick, .reset],
      i.wf namedParams = true) := by decide +kernel
theorem witness_bytes_after_a_received_frame :
    Instr.wf namedParams (.frame 0x22 0x9B [7] 0xC5) = true ∧
    encode (.frame 0x22 0x9B [7] 0xC5) = .received [0x55, 0x22, 0x01, 0x9B, 0x07, 0xC5] := by decide
theorem witness_step_runs :
    decode namedParams (.port 0x3 HostArgs.zero) = .ok .decode ∧
    decode namedParams (.sent [0x55, 0x11, 0x00, 0x2C] .send) = .ok (.knock .send) ∧
    (State.reset.setInputs [.host 0x3 HostArgs.zero]).inputs = .host 0x3 HostArgs.zero :: [] ∧
    (State.reset.setInputs [.request [0x55, 0x11, 0x00, 0x2C] .send]).inputs =
      .request [0x55, 0x11, 0x00, 0x2C] .send :: [] ∧
    ((held [0x55, 0x11, 0x00, 0x2E, 0x3F]).setInputs [.recv]).inputs = .recv :: [] ∧
    ((held [0x55, 0x11, 0x00, 0x2E, 0x3F]).setInputs [.recv]).busy = false ∧
    decode Config.exampleParams (.received (held [0x55, 0x11, 0x00, 0x2E, 0x3F]).acc) = .ok (.ok 0x11 [] 0x3F) ∧
    decode Config.exampleParams (.received (resync [0x01, 0x55, 0x11, 0x00, 0x2E, 0x3F] true)) =
      .ok (.ok 0x11 [] 0x3F) ∧
    (State.reset.setInputs [.tick]).inputs = .tick :: [] ∧
    (State.reset.setInputs [.reset]).inputs = .reset :: [] := by decide
theorem witness_pseudo_operations :
    2 ^ 32 - 1 < 2 ^ State.reset.params.timerW ∧
    (∀ c ∈ [Pseudo.knock, .learn 0xFFFF, .forget, .blocks, .arrows],
      (State.reset.setInputs [.command c (2 ^ 32 - 1)]).inputs = .command c (2 ^ 32 - 1) :: []) ∧
    ((inFlight 3).setInputs [.await]).inputs = .await :: [] ∧ ((inFlight 3).setInputs [.await]).busy = true ∧
    (State.reset.setInputs [.await]).busy = false := by decide
theorem witness_environment :
    (State.reset.setInputs [.arrive [1]]).inputs = .arrive [1] :: [] ∧
    (State.reset.setInputs [.closeLink]).inputs = .closeLink :: [] ∧
    (State.reset.setInputs [.openLink]).inputs = .openLink :: [] ∧ State.reset.inputs = [] := by decide
/-- Both refusals of a step occur. -/
theorem witness_refused_inputs :
    refusal (step (State.reset.setInputs [.command .knock (2 ^ 32)])) = some (.notExpressible .timeoutTooWide) ∧
    refusal (step (State.reset.setInputs [.request [0x55, 0x22, 0x00, 0x2C] .send])) =
      some (.notExpressible .notSendable) := by decide
theorem witness_payload_of_255 : (List.replicate 255 (0xFF : Byte)).length ≤ 255 := by decide +kernel
theorem witness_running_register : [(0x11 : Byte), 0x2C].Perm [0x2C, 0x11] := by decide
/-- DecodeFollowsItsFiveSteps: each clause at the length where the next one begins. -/
theorem witness_decode_steps :
    ([1, 2, 3, 4] : Bytes).length < 5 ∧
    (5 ≤ ([1, 2, 3, 4, 0x55] : Bytes).length ∧ ([1, 2, 3, 4, 0x55] : Bytes).getD 0 0 ≠ 0x55) ∧
    (5 ≤ ([0x55, 0x11, 1, 0x2C, 0] : Bytes).length ∧ ([0x55, 0x11, 1, 0x2C, 0] : Bytes).length < 5 + (1 : Byte).toNat) ∧
    (5 + (1 : Byte).toNat ≤ ([0x55, 0x11, 1, 0x2C, 0, 0x3E] : Bytes).length) := by decide
theorem witness_verdicts_are_stable :
    decodeBuffer [0x55, 0x11, 0x00, 0x2E, 0x3F] true = .frame ⟨0x11, 0, 0x2E, [], 0x3F, true, 5⟩ ∧
    decodeBuffer [0x55, 0x11, 0x00, 0x2E, 0x2D] true = .checksumMismatch 5 0x3F 0x2D ∧
    (decodeBuffer [1, 2, 3, 4, 0x55] true = .desynchronized 4 ∧ 4 < ([1, 2, 3, 4, 0x55] : Bytes).length) ∧
    decodeBuffer [1, 2, 3, 4, 5] true = .desynchronized ([1, 2, 3, 4, 5] : Bytes).length := by decide
/-- A length bit that is 0 before it is damaged, at both ends of the bit range. -/
theorem witness_single_bit_errors : ([0xA5, 0x5A] : Bytes).length ≤ 255 ∧ 0 < 8 ∧ 7 < 8 ∧
    (BitVec.ofNat 8 ([0xA5, 0x5A] : Bytes).length).getLsbD 0 = false ∧
    (BitVec.ofNat 8 ([0xA5, 0x5A] : Bytes).length).getLsbD 7 = false := by decide
theorem witness_acceptance :
    decodeBuffer [0x55, 0x11, 0x00, 0x2E, 0x3F] true = .frame ⟨0x11, 0, 0x2E, [], 0x3F, true, 5⟩ ∧
    decodeBuffer [0x55, 0x11, 0x00, 0x2E, 0x2D] false = .frame ⟨0x11, 0, 0x2E, [], 0x2D, false, 5⟩ ∧
    (FrameVerdict.mk 0x11 0 0x2E [] 0x2D false 5).ckOk = false := by decide
/-- The smallest legal capacity, and the longest buffer that is Incomplete: 259 bytes. -/
def nearlyFull : State :=
  { held ([0x55, 0x11, 0xFF, 0x7E] ++ List.replicate 255 0xFF) with
    params := { Config.exampleParams with accCap := some 260 } }
theorem witness_incomplete_leaves_room : nearlyFull.params.legal = true ∧ nearlyFull.params.accCap = some 260 ∧
    decodeBuffer nearlyFull.acc true = .incomplete ∧ nearlyFull.acc.length = 259 := by decide +kernel
theorem witness_resynchronising : ∀ k, decodeBuffer [0x55, 0x11] true ≠ .desynchronized k := by
  intro k; exact decodeBuffer_sync_ne_desynchronized [0x11] true k
/-- V41, in a buffer whose tail is a sync byte, and in one without any. -/
theorem witness_resynchronising_drops : resync [1, 2, 3, 4, 0x55] true = [0x55] ∧
    resync [1, 2, 3, 4, 5, 6, 7] true = [] := by decide
theorem witness_every_proper_piece : ([] : Bytes).length ≤ 255 ∧ 4 < 5 + ([] : Bytes).length := by decide
theorem witness_recv_drops_garbage :
    let s := (held ([0x00, 0xFF, 0x13] ++ encodeFrame 0x2E [])).setInputs [.recv]
    s.inputs = .recv :: [] ∧ s.busy = false ∧ ([] : Bytes).length ≤ 255 ∧
      (∀ b ∈ ([0x00, 0xFF, 0x13] : Bytes), b ≠ 0x55) ∧ s.acc = [0x00, 0xFF, 0x13] ++ encodeFrame 0x2E [] := by decide
theorem witness_two_frames :
    let s := (held (encodeFrame 0x2E [] ++ encodeFrame 0x71 [1, 2, 3])).setInputs [.recv, .recv, .recv]
    s.inputs = .recv :: .recv :: .recv :: [] ∧ s.busy = false ∧ ([] : Bytes).length ≤ 255 ∧
      ([1, 2, 3] : Bytes).length ≤ 255 ∧ s.acc = encodeFrame 0x2E [] ++ encodeFrame 0x71 [1, 2, 3] := by decide
theorem witness_recv_answers :
    ((held [0x55]).setInputs [.recv]).inputs = .recv :: [] ∧
    decodeBuffer (held [0x55]).acc (held [0x55]).strict = .incomplete ∧
    (((inFlight 3).setAcc [1, 2, 3, 4, 5]).setInputs [.recv]).busy = true ∧
    decodeBuffer ((inFlight 3).setAcc [1, 2, 3, 4, 5]).acc true ≠ .incomplete := by decide
theorem witness_recv_drops_noise :
    let s := (held [1, 2, 3, 4, 0x55]).setInputs [.recv]
    s.inputs = .recv :: [] ∧ s.busy = false ∧ decodeBuffer s.acc s.strict ≠ .incomplete ∧
      decodeBuffer (resync s.acc s.strict) s.strict = .incomplete := by decide
theorem witness_received_frames :
    (held ([0x55, 0x22, BitVec.ofNat 8 ([7] : Bytes).length, 0x71] ++ [7] ++ [0x9B] ++ [0x99])).busy = false ∧
    (held ([0x55, 0x22, BitVec.ofNat 8 ([7] : Bytes).length, 0x71] ++ [7] ++ [0x9B] ++ [0x99])).acc =
      [0x55, 0x22, 0x01, 0x71] ++ [7] ++ [0x9B] ++ [0x99] ∧
    (held ([0x55, 0x11, BitVec.ofNat 8 ([] : Bytes).length, 0x2E] ++ [] ++ [0x3F] ++ [])).acc =
      [0x55, 0x11, 0x00, 0x2E, 0x3F] := by decide
theorem witness_requests_sent : State.reset.busy = false ∧ State.reset.tOpen = true ∧
    (List.replicate 255 (0 : Byte)).length ≤ 255 := by decide +kernel
theorem witness_reserved_codes : codecOnly.params.hasCorr = false := by decide +kernel
theorem witness_with_a_correlator : State.reset.params.hasCorr = true ∧ (inFlight 3).params.hasCorr = true ∧
    (inFlight 3).wf = true ∧ (inFlight 3).xState = .busy := by decide
theorem witness_idle_tick : State.reset.params.hasCorr = true ∧ State.reset.xState = .idle := by decide
theorem witness_waiting_tick : waiting.busy = true ∧ 0 < waiting.xPollcnt := by decide
/-- AttemptFollowsItsSteps: the transport closed, a frame, a damaged frame, nothing; the timeout at its edge. -/
theorem witness_attempt :
    (inFlight 3).busy = true ∧ (inFlight 3).xPollcnt = 0 ∧ ((inFlight 3).setOpen false).tOpen = false ∧
    (inFlight 3).tOpen = true ∧
    decodeBuffer (resync ([0x01, 0x55] ++ [0x11, 0x00, 0x2E, 0x3F]) true) true =
      .frame ⟨0x11, 0, 0x2E, [], 0x3F, true, 5⟩ ∧
    decodeBuffer (resync ([] ++ [0x55, 0x11, 0x00, 0x2E, 0x2D]) true) true = .checksumMismatch 5 0x3F 0x2D ∧
    decodeBuffer (resync ([] ++ []) true) true = .incomplete ∧
    ((inFlight 3).setElapsed 4).xTimeout < ((inFlight 3).setElapsed 4).xElapsed ∧
    ¬ ((inFlight 3).setElapsed 3).xTimeout < ((inFlight 3).setElapsed 3).xElapsed := by decide
/-- V39: the frame arrives in `TQ` after the deadline; here behind noise and part of it already held, which is a
good state with an exchange in flight. -/
theorem witness_a_frame_beats_the_deadline :
    let s := (((inFlight 1).setElapsed 2).setAcc [0x01, 0x55]).setTq [0x11, 0x00, 0x2E, 0x3F, 0x99]
    s.wf = true ∧ decodeBuffer s.acc s.strict = .incomplete ∧ s.params.accCap = some 520 ∧
      s.xTimeout < s.xElapsed ∧ s.busy = true ∧ s.xPollcnt = 0 ∧ s.tOpen = true ∧ ([] : Bytes).length ≤ 255 ∧
      (∀ b ∈ ([0x01] : Bytes), b ≠ 0x55) ∧
      s.acc ++ s.tq.take (min s.tq.length (520 - s.acc.length)) = [0x01] ++ encodeFrame 0x2E [] ++ [0x99] := by decide
theorem witness_a_stale_frame :
    (pending (encodeFrame 0x2E [] ++ [0x55])).params.legal = true ∧
    (pending (encodeFrame 0x2E [] ++ [0x55])).params.hasCorr = true ∧
    (pending (encodeFrame 0x2E [] ++ [0x55])).xState = .idle ∧
    (pending (encodeFrame 0x2E [] ++ [0x55])).tOpen = true ∧
    (pending (encodeFrame 0x2E [] ++ [0x55])).tq = encodeFrame 0x2E [] ++ [0x55] := by decide
/-- V36: timeout 3, poll interval 2, so 2 * (3 / 2 + 1) + 1 = 5 ticks. -/
theorem witness_timeout_on_time :
    let s := (inFlight 3).setInputs (List.replicate 5 .tick)
    s.params.legal = true ∧ s.params.hasCorr = true ∧ s.xState = .busy ∧ s.xElapsed = 0 ∧ s.xPollcnt = 0 ∧
      s.tOpen = true ∧ s.tq = [] ∧ decodeBuffer s.acc s.strict = .incomplete ∧
      s.xTimeout < 2 ^ s.params.timerW - 1 ∧
      s.inputs = List.replicate (s.params.pollInterval * (s.xTimeout / s.params.pollInterval + 1) + 1) .tick := by
  decide
/-- V42: a timer of 2 bits and timeout 3. -/
theorem witness_timeout_never :
    let s := { (inFlight 3).setInputs (List.replicate 8 .tick) with
      params := { Config.exampleParams with timerW := 2 } }
    s.params.legal = true ∧ s.params.hasCorr = true ∧ s.xState = .busy ∧ s.xElapsed < 2 ^ s.params.timerW ∧
      s.tOpen = true ∧ s.tq = [] ∧ decodeBuffer s.acc s.strict = .incomplete ∧
      s.xTimeout = 2 ^ s.params.timerW - 1 ∧ s.inputs = List.replicate 8 .tick := by decide
theorem witness_legal_parameters : Config.exampleParams.legal = true ∧
    Params.legal { Config.exampleParams with accCap := some 260, timerW := 1, pollInterval := 1 } = true ∧
    Params.legal { Config.exampleParams with accCap := none } = true := by decide
/-- EveryStepKeepsTheStateGood and TheTransportIsWrittenByWholeFrames: a good state with a next state. -/
theorem witness_every_step : (State.reset.setInputs [.command .knock 3]).wf = true ∧
    ∃ t, step (State.reset.setInputs [.command .knock 3]) = .next t ∧ t.txlog ≠ [] := ⟨by decide, _, rfl, by decide⟩
theorem witness_every_run : Reachable State.reset :=
  .start Config.exampleParams [] [] true [] (by decide)
theorem witness_an_exchange_in_flight : (inFlight 3).busy = true ∧
    ∃ t, exec .decode (inFlight 3) = .next t := ⟨by decide, _, rfl⟩
theorem witness_busy_is_entered_and_left :
    (∃ t, exec (.xchg 0x2C [] 3) State.reset = .next t ∧ State.reset.busy = false ∧ t.busy = true) ∧
    (∃ t, exec .tick ((inFlight 3).setOpen false) = .next t ∧ ((inFlight 3).setOpen false).busy = true ∧
      t.busy = false ∧ ((inFlight 3).setOpen false).xPollcnt = 0) := ⟨⟨_, rfl, by decide, by decide⟩, ⟨_, rfl, by decide, by decide, by decide⟩⟩
theorem witness_cfg_is_written : ∃ t, exec (.cfgwr 0) State.reset = .next t ∧ t.cfg ≠ State.reset.cfg :=
  ⟨_, rfl, by decide⟩

end Sys2Proof.Tests
end

section
/-! PROOFS. The state of the block (10_state.md): which shared operation each instruction comes to, what each
operation does to `X.RES`, and the settled statements O51 and O45. -/

namespace Sys2Proof.Machine

/-! ## What an instruction can do -/

/-- The shared operation an instruction runs. Many rows run one operation, so what is said of every instruction needs
one case for each operation. -/
inductive OpEffect (s : State) : Instr → State → Prop where
  /-- STAT, DECODE, XRES and the reserved codes answer and change nothing. -/
  | answers {i : Instr} (v : Response) : OpEffect s i (s.respond v)
  /-- The five received rows (log 6). -/
  | receives {i : Instr} (f : WireFrame) : OpEffect s i (receiveOp f s)
  /-- SEND, XCHG and the seven sent rows (log 7). -/
  | transmits {i : Instr} (cmd : Byte) (payload : Bytes) (via : Via) : OpEffect s i (transmitOp cmd payload via s)
  | fills (max : Nat) : OpEffect s (.fill max) (fillOp max s)
  | drops (n : Nat) : OpEffect s (.drop n) (dropHostOp n s)
  | flushes : OpEffect s .flush (flushOp s)
  | writesCfg (value : Byte) : OpEffect s (.cfgwr value) (cfgwrOp value s)
  | ticks : OpEffect s .tick ((tickOp s).respond .nothing)
  | resets : OpEffect s .reset ((resetOp s).respond .nothing)

/-- XRES answers the record, or BadOp without a correlator; in both cases it only answers. -/
theorem execXres_eq (s : State) :
    execXres s = .next (s.respond (if s.params.hasCorr then .xres s.xRes else .status .badOp)) := by
  unfold execXres badOp refuse
  split <;> rfl

/-- Every instruction has a next state, and one shared operation makes it. -/
theorem exec_has_effect (i : Instr) (s : State) : ∃ t, exec i s = .next t ∧ OpEffect s i t := by
  cases i with
  | frame | ok | blockRecord | arrowRecord | info => exact ⟨_, rfl, .receives _⟩
  | frameTx cmd payload via | algorithmSelect cmd payload via => exact ⟨_, rfl, .transmits cmd payload via⟩
  | knock via => exact ⟨_, rfl, .transmits Config.CC_KNOCK [] via⟩
  | blocksRequest cmd via | arrowsRequest cmd via | forget cmd via => exact ⟨_, rfl, .transmits cmd [] via⟩
  | learn cmd id via => exact ⟨_, rfl, .transmits cmd (learnPayload id) via⟩
  | send cmd payload => exact ⟨_, rfl, .transmits cmd payload .send⟩
  | xchg cmd payload timeout => exact ⟨_, rfl, .transmits cmd payload (.exchange timeout)⟩
  | stat | decode => exact ⟨_, rfl, .answers _⟩
  | xres => exact ⟨_, execXres_eq s, .answers _⟩
  | reserved7 | reservedA | reservedB | reservedC | reservedD | reservedE | reservedF =>
    exact ⟨_, rfl, .answers (.status .badOp)⟩
  | fill max => exact ⟨_, rfl, .fills max⟩
  | drop n => exact ⟨_, rfl, .drops n⟩
  | flush => exact ⟨_, rfl, .flushes⟩
  | cfgwr value => exact ⟨_, rfl, .writesCfg value⟩
  | tick => exact ⟨_, rfl, .ticks⟩
  | reset => exact ⟨_, rfl, .resets⟩

/-- The inversion of `exec`: what an instruction answered, one shared operation made. -/
theorem opEffect_of_exec {i : Instr} {s t : State} (h : exec i s = .next t) : OpEffect s i t := by
  obtain ⟨u, hu, heffect⟩ := exec_has_effect i s
  rw [hu] at h
  cases h
  exact heffect

/-! ## What each operation does to the result -/

@[simp] theorem pullOp_xRes (s : State) (n : Nat) : (pullOp s n).xRes = s.xRes := rfl
@[simp] theorem pollOp_xRes (s : State) : (pollOp s).xRes = s.xRes := rfl
@[simp] theorem countTick_xRes (s : State) : (countTick s).xRes = s.xRes := rfl
@[simp] theorem countTick_busy (s : State) : (countTick s).busy = s.busy := rfl

@[simp] theorem endExchange_busy (res : XRes) (s : State) : (endExchange res s).busy = false := by
  simp [endExchange]

@[simp] theorem sendOp_xRes (cmd : Byte) (payload : Bytes) (s : State) : (sendOp cmd payload s).xRes = s.xRes := by
  rcases sendOp_cases cmd payload s with ⟨st, h, -⟩ | ⟨-, -, -, h⟩ <;> simp [h]

@[simp] theorem fillOp_xRes (max : Nat) (s : State) : (fillOp max s).xRes = s.xRes := by
  rcases fillOp_cases max s with ⟨st, h, -⟩ | ⟨-, -, h⟩ <;> simp [h]

@[simp] theorem dropHostOp_xRes (n : Nat) (s : State) : (dropHostOp n s).xRes = s.xRes := by
  rcases dropHostOp_cases n s with ⟨st, h, -⟩ | ⟨-, -, h⟩ <;> simp [h]

@[simp] theorem flushOp_xRes (s : State) : (flushOp s).xRes = s.xRes := by
  rcases flushOp_cases s with ⟨-, h⟩ | ⟨-, h⟩ <;> simp [h]

@[simp] theorem cfgwrOp_xRes (value : Byte) (s : State) : (cfgwrOp value s).xRes = s.xRes := by
  rcases cfgwrOp_cases value s with ⟨-, h⟩ | ⟨-, h⟩ <;> simp [h]

@[simp] theorem receiveOp_xRes (f : WireFrame) (s : State) : (receiveOp f s).xRes = s.xRes := by
  rcases receiveOp_cases f s with ⟨st, h, -⟩ | ⟨-, -, h⟩ <;> simp [h]

/-- A started exchange is in flight, if there is a correlator to be busy. -/
theorem startExchange_busy (cmd : Byte) (payload : Bytes) (timeout : Nat) (s : State)
    (hcorr : s.params.hasCorr = true) : (startExchange cmd payload timeout s).busy = true := by
  simp [startExchange_eq, State.busy, hcorr]

/-- XCHG clears the result only where it takes the block from idle to busy (41_correlator_ops.md R152). -/
theorem xchgOp_xRes_cases (cmd : Byte) (payload : Bytes) (timeout : Nat) (s : State) :
    (xchgOp cmd payload timeout s).xRes = s.xRes ∨
    (s.busy = false ∧ (xchgOp cmd payload timeout s).busy = true ∧
      (xchgOp cmd payload timeout s).xRes = XRes.bare .none) := by
  rcases xchgOp_cases cmd payload timeout s with ⟨st, h, -⟩ | ⟨hcorr, hidle, -, -, h⟩
  · exact .inl (by simp [h])
  · have hbusy := startExchange_busy cmd payload timeout s hcorr
    exact .inr ⟨hidle, by simp [h, hbusy], by simp [h, startExchange_eq]⟩

/-- Of the two ways to write a frame only the exchange touches the result. -/
theorem transmitOp_xRes_cases (cmd : Byte) (payload : Bytes) (via : Via) (s : State) :
    (transmitOp cmd payload via s).xRes = s.xRes ∨
    (s.busy = false ∧ (transmitOp cmd payload via s).busy = true ∧
      (transmitOp cmd payload via s).xRes = XRes.bare .none) := by
  cases via with
  | send => exact .inl (sendOp_xRes cmd payload s)
  | exchange timeout => exact xchgOp_xRes_cases cmd payload timeout s

/-- Step A4 writes a result only where it ends the exchange (41_correlator_ops.md R156, R157). -/
theorem concludeOp_xRes_cases (v : Verdict) (s : State) :
    (concludeOp v s).xRes = s.xRes ∨ (concludeOp v s).busy = false := by
  cases v with
  | frame f => exact .inr (endExchange_busy _ _)
  | checksumMismatch span expected got => exact .inr (endExchange_busy _ _)
  | desynchronized k => exact .inl rfl
  | incomplete =>
    rw [concludeOp]
    split
    · exact .inr (endExchange_busy _ _)
    · exact .inl rfl

/-- An attempt writes a result only where it ends the exchange. -/
theorem attemptOp_xRes_cases (s : State) : (attemptOp s).xRes = s.xRes ∨ (attemptOp s).busy = false := by
  rcases attemptOp_cases s with ⟨-, h⟩ | ⟨-, h⟩ <;> rw [h, countTick_xRes, countTick_busy]
  · exact .inr (endExchange_busy _ _)
  · have hconclude := concludeOp_xRes_cases (decodeBuffer (pollOp s).acc s.strict) (pollOp s)
    rwa [pollOp_xRes] at hconclude

/-- A tick writes a result only where it takes the block from busy to idle. -/
theorem tickOp_xRes_cases (s : State) :
    (tickOp s).xRes = s.xRes ∨ (s.busy = true ∧ (tickOp s).busy = false) := by
  rcases tickOp_cases s with ⟨-, h⟩ | ⟨-, -, h⟩ | ⟨hbusy, -, h⟩ <;> rw [h]
  · exact .inl rfl
  · exact .inl rfl
  · exact (attemptOp_xRes_cases s).imp_right fun hidle => ⟨hbusy, hidle⟩

/-! ## The statements -/

/-- Settles O51, by cases on the operation the instruction runs: only an exchange, TICK and RESET touch `X.RES`. -/
theorem theResultIsWrittenInThreePlacesOnly : Obligations.TheResultIsWrittenInThreePlacesOnly := by
  intro i s t h
  cases opEffect_of_exec h with
  | answers v => exact .inl rfl
  | receives f => exact .inl (receiveOp_xRes f s)
  | transmits cmd payload via => exact (transmitOp_xRes_cases cmd payload via s).imp_right .inl
  | fills max => exact .inl (fillOp_xRes max s)
  | drops n => exact .inl (dropHostOp_xRes n s)
  | flushes => exact .inl (flushOp_xRes s)
  | writesCfg value => exact .inl (cfgwrOp_xRes value s)
  | ticks => exact (tickOp_xRes_cases s).imp_right fun hends => .inr (.inl ⟨rfl, hends⟩)
  | resets => exact .inr (.inr (.inr ⟨rfl, rfl⟩))

/-- Settles O45: the core is given `State.reset`, and each conjunct reads one of its fields. -/
theorem theMachineStartsInTheResetState : Obligations.TheMachineStartsInTheResetState :=
  ⟨rfl, rfl, rfl, rfl, rfl, rfl, rfl, rfl⟩

end Sys2Proof.Machine
end

section
/-! PROOFS. The codec's host operations (40_codec_ops.md): the checksum, Encode, the five steps of Decode, what each
host operation does to the state, and the busy check; the settled statements O9, O11, O12, O26 to O32 and O49. -/

namespace Sys2Proof

/-! ## The checksum -/

theorem byteSum_eq_sum (s : Bytes) : byteSum s = (s.map BitVec.toNat).sum := by
  induction s with
  | nil => rfl
  | cons b s ih => simp [ih]

/-- The frame's checksum covers the length as a number, since the payload fits its length byte
(30_encoding.md R83). -/
theorem frameChecksum_toNat (addr cmd : Byte) (payload : Bytes) (h : payload.length ≤ 255) :
    (frameChecksum addr cmd payload).toNat =
      (addr.toNat + payload.length + cmd.toNat + byteSum payload) % 256 := by
  rw [frameChecksum, checksum_toNat]
  simp [lengthByte_toNat payload h]
  omega

/-! ## The byte found by the search for a sync byte -/

theorem getD_ne_sync_of_lt_bytesBeforeSync (s : Bytes) (j : Nat) (h : j < bytesBeforeSync s) :
    s.getD j 0 ≠ Config.SYNC := by
  have hlen : j < s.length := h.trans_le (bytesBeforeSync_le s)
  rw [List.getD_eq_getElem _ _ hlen]
  exact mem_take_bytesBeforeSync s _ (List.mem_take_iff_getElem.mpr ⟨j, by omega, rfl⟩)

theorem getD_bytesBeforeSync (s : Bytes) (h : bytesBeforeSync s < s.length) :
    s.getD (bytesBeforeSync s) 0 = Config.SYNC := by
  rw [List.getD_eq_getElem _ _ h]
  rcases drop_bytesBeforeSync s with hnil | ⟨rest, hrest⟩
  · have := List.drop_eq_nil_iff.mp hnil
    omega
  · rw [List.drop_eq_getElem_cons h] at hrest
    exact (List.cons.inj hrest).1

/-! ## A frame's bytes by position -/

/-- The header bytes of 30_encoding.md R81 at the front of a buffer that is long enough. -/
theorem exists_header_of_four_le (buf : Bytes) (h : 4 ≤ buf.length) :
    ∃ sync addr len cmd rest, buf = sync :: addr :: len :: cmd :: rest := by
  match buf, h with
  | sync :: addr :: len :: cmd :: rest, _ => exact ⟨sync, addr, len, cmd, rest, rfl⟩

/-- Where the bytes after the header are more than the declared length, the buffer is a frame and what follows it. -/
theorem header_eq_wireBytes_append (addr len cmd : Byte) (rest : Bytes) (h : len.toNat < rest.length) :
    Config.SYNC :: addr :: len :: cmd :: rest =
      wireBytes addr cmd (rest.take len.toNat) (rest.getD len.toNat 0) ++ rest.drop (len.toNat + 1) := by
  have hrest : rest.take len.toNat ++ rest.getD len.toNat 0 :: rest.drop (len.toNat + 1) = rest := by
    rw [List.getD_eq_getElem _ _ h, ← List.drop_eq_getElem_cons h, List.take_append_drop]
  have hlen : lengthByte (rest.take len.toNat) = len := by
    rw [lengthByte, List.length_take_of_le h.le, BitVec.ofNat_toNat, BitVec.setWidth_eq]
  simp only [wireBytes, hlen, List.cons_append, List.nil_append, List.append_assoc, hrest]

end Sys2Proof

namespace Sys2Proof.Machine

/-! ## The five steps of Decode (40_codec_ops.md R114) -/

theorem decodeBuffer_of_short (buf : Bytes) (strict : Bool) (h : buf.length < 5) :
    decodeBuffer buf strict = .incomplete := by
  simp [decodeBuffer, readFrame_of_short buf h]

theorem decodeBuffer_of_noSync (b : Byte) (rest : Bytes) (strict : Bool) (h4 : 4 ≤ rest.length)
    (hb : b ≠ Config.SYNC) : decodeBuffer (b :: rest) strict = .desynchronized (1 + bytesBeforeSync rest) := by
  simp [decodeBuffer, readFrame_of_noSync b rest h4 hb]

theorem decodeBuffer_of_partial (addr len cmd : Byte) (rest : Bytes) (strict : Bool)
    (h : rest.length ≤ len.toNat) :
    decodeBuffer (Config.SYNC :: addr :: len :: cmd :: rest) strict = .incomplete := by
  cases rest with
  | nil => rfl
  | cons b4 rest =>
    have hpartial : (Config.SYNC :: addr :: len :: cmd :: b4 :: rest).length < Config.OVERHEAD + len.toNat := by
      simp only [List.length_cons, Config.OVERHEAD_eq] at h ⊢
      omega
    rw [decodeBuffer, readFrame, if_neg (not_not_intro rfl), if_pos hpartial]

/-- Steps 4 and 5 on a frame that is all there: its checksum decides, and its fields are the bytes at their
positions. -/
theorem decodeBuffer_of_whole (addr len cmd : Byte) (rest : Bytes) (strict : Bool)
    (h : len.toNat < rest.length) :
    decodeBuffer (Config.SYNC :: addr :: len :: cmd :: rest) strict =
      judge strict { addr := addr, cmd := cmd, payload := rest.take len.toNat, ck := rest.getD len.toNat 0 } := by
  have hfits : (rest.take len.toNat).length ≤ 255 := by
    have := len.isLt
    simp; omega
  rw [header_eq_wireBytes_append addr len cmd rest h]
  exact decodeBuffer_of_frame _ strict _ (readFrame_wireBytes addr cmd _ _ _ hfits)

/-- The judgement in terms of the length byte and the recomputed checksum as they stand on the wire. -/
theorem judge_eq (strict : Bool) (addr len cmd ck : Byte) (payload : Bytes) (h : payload.length = len.toNat) :
    judge strict { addr := addr, cmd := cmd, payload := payload, ck := ck } =
      if checksum ([addr, len, cmd] ++ payload) ≠ ck ∧ strict = true then
        .checksumMismatch (5 + len.toNat) (checksum ([addr, len, cmd] ++ payload)) ck
      else
        .frame { addr := addr, plen := len, cmd := cmd, payload := payload, ck := ck,
                 ckOk := checksum ([addr, len, cmd] ++ payload) == ck, consumed := 5 + len.toNat } := by
  have hlen : lengthByte payload = len := by
    rw [lengthByte, h, BitVec.ofNat_toNat, BitVec.setWidth_eq]
  have hck : frameChecksum addr cmd payload = checksum ([addr, len, cmd] ++ payload) := by
    rw [frameChecksum, hlen]
  simp [judge, WireFrame.ckOk, hck, hlen, frameLength, h]

/-! ## The parts the host operations read -/

theorem pullCount_of_unbounded (s : State) (max : Nat) (h : s.params.accCap = none) :
    s.pullCount max = min max s.tq.length := by
  simp [State.pullCount, limitToRoom, h]

theorem pullCount_of_capacity (s : State) (max cap : Nat) (h : s.params.accCap = some cap) :
    s.pullCount max = min max (min s.tq.length (cap - s.acc.length)) := by
  simp [State.pullCount, limitToRoom, h, Nat.min_assoc]

/-- What CFGWR stores is decided by bit 0 alone (10_state.md R22). -/
theorem cfgOf_eq (value : Byte) : cfgOf value = if value.getLsbD 0 = true then 0x01 else 0x00 := by
  have hbit : cfgOf value = BitVec.setWidth 8 (BitVec.ofBool (value.getLsbD 0)) :=
    BitVec.and_one_eq_setWidth_ofBool_getLsbD
  rw [hbit]
  cases value.getLsbD 0 <;> rfl

/-- The kinds of a verdict are the status codes 1 to 4 (30_encoding.md R96). -/
theorem Verdict.status_code_bounds (v : Verdict) : 1 ≤ v.status.code ∧ v.status.code ≤ 4 := by
  cases v <;> simp [Verdict.status, Status.code]

/-! ## The busy check (40_codec_ops.md R121) -/

theorem hasCorr_of_busy {s : State} (h : s.busy = true) : s.params.hasCorr = true := by
  simp only [State.busy, Bool.and_eq_true] at h
  exact h.1

theorem busy_of_no_correlator {s : State} (h : s.params.hasCorr = false) : s.busy = false := by
  simp [State.busy, h]

section
variable {s : State} (hbusy : s.busy = true)
include hbusy

theorem sendOp_of_busy (cmd : Byte) (payload : Bytes) :
    sendOp cmd payload s = s.respond (.status .busy) := by simp [sendOp, refuse, hbusy]

theorem fillOp_of_busy (max : Nat) : fillOp max s = s.respond (.status .busy) := by simp [fillOp, refuse, hbusy]

theorem dropHostOp_of_busy (n : Nat) : dropHostOp n s = s.respond (.status .busy) := by
  simp [dropHostOp, refuse, hbusy]

theorem flushOp_of_busy : flushOp s = s.respond (.status .busy) := by simp [flushOp, refuse, hbusy]

theorem cfgwrOp_of_busy (value : Byte) : cfgwrOp value s = s.respond (.status .busy) := by
  simp [cfgwrOp, refuse, hbusy]

theorem xchgOp_of_busy (cmd : Byte) (payload : Bytes) (timeout : Nat) :
    xchgOp cmd payload timeout s = s.respond (.status .busy) := by
  simp [xchgOp, refuse, hbusy, hasCorr_of_busy hbusy]

theorem receiveOp_of_busy (f : WireFrame) : receiveOp f s = s.respond (.status .busy) := by
  simp [receiveOp, refuse, hbusy]

theorem transmitOp_of_busy (cmd : Byte) (payload : Bytes) (via : Via) :
    transmitOp cmd payload via s = s.respond (.status .busy) := by
  cases via with
  | send => exact sendOp_of_busy hbusy cmd payload
  | exchange timeout => exact xchgOp_of_busy hbusy cmd payload timeout

/-- While an exchange is in flight every operation but the two events only answers. -/
theorem OpEffect.answers_of_busy {i : Instr} {t : State} (h : OpEffect s i t) (htick : i ≠ .tick)
    (hreset : i ≠ .reset) : ∃ v, t = s.respond v := by
  cases h with
  | answers v => exact ⟨v, rfl⟩
  | receives f => exact ⟨_, receiveOp_of_busy hbusy f⟩
  | transmits cmd payload via => exact ⟨_, transmitOp_of_busy hbusy cmd payload via⟩
  | fills max => exact ⟨_, fillOp_of_busy hbusy max⟩
  | drops n => exact ⟨_, dropHostOp_of_busy hbusy n⟩
  | flushes => exact ⟨_, flushOp_of_busy hbusy⟩
  | writesCfg value => exact ⟨_, cfgwrOp_of_busy hbusy value⟩
  | ticks => exact absurd rfl htick
  | resets => exact absurd rfl hreset

/-- The six state-changing host operations answer Busy. -/
theorem exec_of_busy (cmd : Byte) (payload : Bytes) (max n : Nat) (value : Byte) (timeout : Nat) :
    ∀ i ∈ [Instr.send cmd payload, .fill max, .drop n, .flush, .cfgwr value, .xchg cmd payload timeout],
      exec i s = .next (s.respond (.status .busy)) := by
  simp only [List.forall_mem_cons, List.not_mem_nil, false_imp_iff, implies_true, and_true]
  exact ⟨congrArg _ (sendOp_of_busy hbusy cmd payload), congrArg _ (fillOp_of_busy hbusy max),
    congrArg _ (dropHostOp_of_busy hbusy n), congrArg _ (flushOp_of_busy hbusy),
    congrArg _ (cfgwrOp_of_busy hbusy value), congrArg _ (xchgOp_of_busy hbusy cmd payload timeout)⟩

/-- XRES is accepted in flight: a block that is busy has a correlator. -/
theorem exec_xres_of_busy : exec .xres s = .next (s.respond (.xres s.xRes)) := by
  have hxres : exec .xres s = execXres s := rfl
  rw [hxres, execXres_eq, hasCorr_of_busy hbusy]
  rfl

end

/-- Two different answers of one state are two different outcomes. -/
theorem next_respond_ne {s : State} {v w : Response} (h : v ≠ w) :
    (.next (s.respond v) : Host.Outcome State Fault Refusal) ≠ .next (s.respond w) := fun heq =>
  h (congrArg State.resp (Host.Outcome.next.inj heq))

/-! ## The statements -/

/-- Settles O9: the checksum is the byte sum modulo 256, and a frame's covers the length byte as a number. -/
theorem frameChecksumIsTheSumModulo256 : Obligations.FrameChecksumIsTheSumModulo256 := by
  refine ⟨fun s => ?_, rfl, fun addr cmd payload h => ?_⟩
  · rw [checksum_toNat, byteSum_eq_sum]
  · rw [frameChecksum_toNat addr cmd payload h, byteSum_eq_sum]

/-- Settles O12: one lemma for each step of Decode, on the buffer taken apart at its header. -/
theorem decodeFollowsItsFiveSteps : Obligations.DecodeFollowsItsFiveSteps := by
  intro buf strict
  refine ⟨decodeBuffer_of_short buf strict, fun h5 hsync => ?_, fun h5 hsync hpartial => ?_,
    fun h5 hsync hwhole => ?_⟩
  · obtain ⟨b, rest, rfl⟩ := List.exists_cons_of_length_pos (Nat.lt_of_lt_of_le (by decide) h5)
    have hle := bytesBeforeSync_le rest
    refine ⟨1 + bytesBeforeSync rest, decodeBuffer_of_noSync b rest strict (by simpa using h5) hsync,
      by omega, by simp; omega, fun j h1 hj => ?_, fun hfound => ?_⟩
    · obtain ⟨i, rfl⟩ := Nat.exists_eq_add_of_le' h1
      exact getD_ne_sync_of_lt_bytesBeforeSync rest i (by omega)
    · rw [Nat.add_comm] at hfound ⊢
      exact getD_bytesBeforeSync rest (by simpa using hfound)
  · obtain ⟨sync, addr, len, cmd, rest, rfl⟩ := exists_header_of_four_le buf (Nat.le_of_succ_le h5)
    obtain rfl : sync = Config.SYNC := hsync
    have hpartial : rest.length + 4 < 5 + len.toNat := hpartial
    exact decodeBuffer_of_partial addr len cmd rest strict (by omega)
  · obtain ⟨sync, addr, len, cmd, rest, rfl⟩ := exists_header_of_four_le buf (Nat.le_of_succ_le h5)
    obtain rfl : sync = Config.SYNC := hsync
    have hwhole : 5 + len.toNat ≤ rest.length + 4 := hwhole
    have hlt : len.toNat < rest.length := by omega
    have hck (n : Nat) : (Config.SYNC :: addr :: len :: cmd :: rest).getD (4 + n) 0 = rest.getD n 0 := by
      rw [Nat.add_comm]; rfl
    rw [decodeBuffer_of_whole addr len cmd rest strict hlt, hck,
      judge_eq strict addr len cmd _ _ (List.length_take_of_le hlt.le)]
    rfl

/-- Settles O49: in flight each operation but the two events only answers, and which answer is Busy. -/
theorem anExchangeInFlightOwnsTheBlock : Obligations.AnExchangeInFlightOwnsTheBlock := by
  intro s
  refine ⟨fun hbusy i t htick hreset h => ?_, exec_of_busy, fun hbusy => ?_, busy_of_no_correlator⟩
  · obtain ⟨v, rfl⟩ := (opEffect_of_exec h).answers_of_busy hbusy htick hreset
    rfl
  · simp only [List.forall_mem_cons, List.not_mem_nil, false_imp_iff, implies_true, and_true]
    refine ⟨next_respond_ne nofun, next_respond_ne nofun, ?_⟩
    rw [exec_xres_of_busy hbusy]
    exact next_respond_ne nofun

/-- Settles O11: Encode's bytes are written out in `encodeFrame`; the length is that of any frame on the wire. -/
theorem encodeEmitsTheFrame : Obligations.EncodeEmitsTheFrame := by
  intro cmd payload _
  refine ⟨frameChecksum Config.ADDR cmd payload, rfl, rfl, ?_⟩
  rw [encodeFrame_eq_wireBytes, wireBytes_length, frameLength]

/-- Settles O26, by whether there is a correlator. -/
theorem statReturnsTheRecord : Obligations.StatReturnsTheRecord := by
  intro s
  have hstat : exec .stat s = .next (s.respond (.stat s.statRecord)) := rfl
  rw [hstat, State.statRecord, State.busy]
  cases s.params.hasCorr <;> rfl

/-- Settles O27: the refusals of SEND in their order, and the frame written where none applies. -/
theorem sendWritesTheFrameOrRefuses : Obligations.SendWritesTheFrameOrRefuses := by
  intro cmd payload s
  have hsend : exec (.send cmd payload) s = .next (sendOp cmd payload s) := rfl
  rw [hsend, sendOp, payloadTooLong]
  simp only [decide_eq_true_eq]
  rfl

/-- Settles O28: the count of FILL with and without a capacity. -/
theorem fillPullsWhatFits : Obligations.FillPullsWhatFits := by
  intro max s
  have hfill : exec (.fill max) s = .next (fillOp max s) := rfl
  rw [hfill, fillOp]
  cases hcap : s.params.accCap with
  | none => rw [pullCount_of_unbounded s max hcap]; rfl
  | some cap => rw [pullCount_of_capacity s max cap hcap]; rfl

/-- Settles O29: DECODE only answers, with the verdict, whose kind is a status code from 1 to 4. -/
theorem decodeReturnsTheVerdict : Obligations.DecodeReturnsTheVerdict := fun _ =>
  ⟨rfl, _, rfl, Verdict.status_code_bounds _⟩

/-- Settles O30: the branches of `dropHostOp` are the statement's. -/
theorem dropRemovesTheFront : Obligations.DropRemovesTheFront := fun _ _ => rfl

/-- Settles O31: the branches of `flushOp` are the statement's. -/
theorem flushEmptiesTheAccumulatorOnly : Obligations.FlushEmptiesTheAccumulatorOnly := fun _ => rfl

/-- Settles O32: what is stored is decided by bit 0. -/
theorem cfgwrStoresBitZeroOnly : Obligations.CfgwrStoresBitZeroOnly := by
  intro value s
  have hcfgwr : exec (.cfgwr value) s = .next (cfgwrOp value s) := rfl
  rw [hcfgwr, cfgwrOp, cfgOf_eq]
  rfl

end Sys2Proof.Machine
end

section
/-! PROOFS. The correlator's operations (41_correlator_ops.md): XCHG, XRES, and TICK idle, waiting and at an attempt;
the settled statements O35 to O39. -/

namespace Sys2Proof.Machine

/-! ## The facts the statements turn on -/

/-- With a correlator the busy flag is `X.STATE` (10_state.md R27, R30). -/
theorem busy_iff_xState {s : State} (hcorr : s.params.hasCorr = true) : s.busy = true ↔ s.xState = .busy := by
  simp [State.busy, hcorr]

/-- In a good state no result stands while an exchange is in flight (10_state.md R35). -/
theorem xRes_kind_of_wf {s : State} (hwf : s.wf = true) (hbusy : s.xState = .busy) : s.xRes.kind = .none := by
  simp only [State.wf, Bool.and_eq_true] at hwf
  obtain ⟨⟨-, hkind⟩, -⟩ := hwf
  simpa [hbusy] using hkind

/-- An attempt asks for all that is pending, so only the room in the accumulator limits what it pulls. -/
theorem pullCount_pending (s : State) :
    s.pullCount s.tq.length = limitToRoom s.params.accCap s.acc.length s.tq.length := by
  rw [State.pullCount, Nat.min_self]

/-- The loop of step A3 ends: what it leaves is not desynchronised (41_correlator_ops.md R156). -/
theorem decodeBuffer_resync_ne_desynchronized (buf : Bytes) (strict : Bool) (k : Nat) :
    decodeBuffer (resync buf strict) strict ≠ .desynchronized k := by
  rcases resync_cases buf strict with ⟨hsettled, hkept⟩ | ⟨b, rest, -, -, -, hdropped⟩
  · rw [hkept]
    exact hsettled k
  · rw [hdropped]
    rcases drop_bytesBeforeSync rest with hnil | ⟨r, hsync⟩
    · rw [hnil]
      exact nofun
    · rw [hsync]
      exact decodeBuffer_sync_ne_desynchronized r strict k

/-- The length a Frame verdict reports is that of its payload. -/
theorem plen_of_decodeBuffer_frame {buf : Bytes} {strict : Bool} {f : FrameVerdict}
    (h : decodeBuffer buf strict = .frame f) : f.plen = lengthByte f.payload := by
  rcases decodeBuffer_cases buf strict with ⟨hv, -⟩ | ⟨_, _, -, -, -, hv⟩ | ⟨w, _, -, -, -, hv⟩ <;> rw [hv] at h
  · cases h
  · cases h
  · rcases judge_cases strict w with ⟨hj, -, -⟩ | ⟨hj, -⟩ <;> rw [hj] at h <;> cases h
    rfl

/-- The delivered result reports the checksum over the bytes as the verdict gives them. -/
theorem deliveredRes_of_decodeBuffer {buf : Bytes} {strict : Bool} {f : FrameVerdict}
    (h : decodeBuffer buf strict = .frame f) :
    deliveredRes f =
      { kind := .frame, addr := f.addr, plen := f.plen, cmd := f.cmd, payload := f.payload, ck := f.ck,
        ckOk := f.ckOk, expected := checksum ([f.addr, f.plen, f.cmd] ++ f.payload) } := by
  rw [deliveredRes, frameChecksum, plen_of_decodeBuffer_frame h]

/-! ## What a tick runs (41_correlator_ops.md R154 to R156) -/

theorem exec_tick (s : State) : exec .tick s = .next ((tickOp s).respond .nothing) := rfl

theorem exec_tick_of_idle {s : State} (hidle : s.busy = false) : exec .tick s = .next (s.respond .nothing) := by
  rw [exec_tick, tickOp, if_pos hidle]

section
variable {s : State} (hbusy : s.busy = true)
include hbusy

theorem exec_tick_of_waiting (hpoll : 0 < s.xPollcnt) :
    exec .tick s = .next ((countTick (s.setPollcnt (s.xPollcnt - 1))).respond .nothing) := by
  rw [exec_tick, tickOp, if_neg (by simp [hbusy]), if_pos hpoll]

theorem exec_tick_of_attempt (hpoll : s.xPollcnt = 0) :
    exec .tick s = .next ((attemptOp s).respond .nothing) := by
  rw [exec_tick, tickOp, if_neg (by simp [hbusy]), if_neg (by simp [hpoll])]

theorem exec_tick_of_closed (hpoll : s.xPollcnt = 0) (hclosed : s.tOpen = false) :
    exec .tick s = .next ((countTick (endExchange (XRes.bare .transport) s)).respond .nothing) := by
  rw [exec_tick_of_attempt hbusy hpoll, attemptOp, if_pos hclosed]

theorem exec_tick_of_verdict (hpoll : s.xPollcnt = 0) (hopen : s.tOpen = true) {v : Verdict}
    (hv : decodeBuffer (pollOp s).acc s.strict = v) :
    exec .tick s = .next ((countTick (concludeOp v (pollOp s))).respond .nothing) := by
  rw [exec_tick_of_attempt hbusy hpoll, attemptOp, if_neg (by simp [hopen]), hv]

end

/-! ## The statements -/

/-- Settles O39: the count the statement writes out is what the attempt pulls, so its buffer is the accumulator after
steps A2 and A3; step A4 is then `concludeOp` on each verdict that can stand there. -/
theorem attemptFollowsItsSteps : Obligations.AttemptFollowsItsSteps := by
  intro s hbusy hpoll counted n buf bare
  have hn : s.pullCount s.tq.length = n := by
    rw [pullCount_pending]
    cases hcap : s.params.accCap <;> simp [n, hcap, limitToRoom]
  have hpolled : pollOp s = { s with acc := buf, tq := s.tq.drop n } := by
    rw [pollOp_eq, hn]
    rfl
  have hacc : (pollOp s).acc = buf := congrArg State.acc hpolled
  have htick (hopen : s.tOpen = true) {v : Verdict} (hv : decodeBuffer buf s.strict = v) :
      exec .tick s =
        .next ((countTick (concludeOp v { s with acc := buf, tq := s.tq.drop n })).respond .nothing) := by
    rw [exec_tick_of_verdict hbusy hpoll hopen (hacc ▸ hv), hpolled]
  refine ⟨exec_tick_of_closed hbusy hpoll, fun hopen f hv => ?_, fun hopen span e got hv => htick hopen hv,
    fun hopen hv => ?_, decodeBuffer_resync_ne_desynchronized _ _⟩
  · rw [htick hopen hv, concludeOp, deliveredRes_of_decodeBuffer hv]
    rfl
  · rw [htick hopen hv, concludeOp]
    split <;> rfl

/-- Settles O35: with a correlator the branches of `xchgOp` are the statement's. -/
theorem xchgStartsTheExchangeOrRefuses : Obligations.XchgStartsTheExchangeOrRefuses := by
  intro cmd payload timeout s hcorr
  have hxchg : exec (.xchg cmd payload timeout) s = .next (xchgOp cmd payload timeout s) := rfl
  rw [hxchg, xchgOp, if_neg (by simp [hcorr]), payloadTooLong]
  simp only [busy_iff_xState hcorr, decide_eq_true_eq]
  rfl

/-- Settles O36: XRES only answers, and in flight a good state's record is NONE. -/
theorem xresReturnsTheRecord : Obligations.XresReturnsTheRecord := by
  intro s hcorr
  have hxres : exec .xres s = execXres s := rfl
  refine ⟨?_, xRes_kind_of_wf⟩
  rw [hxres, execXres_eq, if_pos hcorr]
  rfl

/-- Settles O37: a block whose `X.STATE` is idle is not busy. -/
theorem idleTickChangesNothing : Obligations.IdleTickChangesNothing := by
  intro s _ hidle
  exact exec_tick_of_idle (by simp [State.busy, hidle])

/-- Settles O38: the waiting tick counts and returns nothing. -/
theorem waitingTickCountsOnly : Obligations.WaitingTickCountsOnly := fun _ hbusy hpoll =>
  exec_tick_of_waiting hbusy hpoll

end Sys2Proof.Machine
end

section
/-! PROOFS. Reset (70_reset_and_hazards.md R210): what RESET leaves is `resetOp_eq`, and it answers
nothing; the settled statement O44. -/

namespace Sys2Proof.Machine

/-- RESET has no guard: it answers nothing in every state (70_reset_and_hazards.md R210). -/
theorem exec_reset (s : State) : exec .reset s = .next ((resetOp s).respond .nothing) := rfl

/-- Settles O44: no case of the state is looked at, an exchange in flight included; the transport stands in none of
the fields `resetOp_eq` names. -/
theorem resetSetsEveryElementAndLeavesTheTransport : Obligations.ResetSetsEveryElementAndLeavesTheTransport := by
  intro s
  rw [exec_reset, resetOp_eq]
  rfl

end Sys2Proof.Machine
end

section
/-! PROOFS. The encodings (30_encoding.md): what the decoder reads from a frame, a request and a host code, that it
undoes the encoder, and that what it reads is well formed; the settled statements O1 to O4. -/

namespace Sys2Proof

/-! ## The three kinds of code -/

theorem readRequest_requestBytes (cmd : Byte) (payload : Bytes) (h : payload.length ≤ 255) :
    readRequest (requestBytes cmd payload) = .ok (cmd, payload) :=
  if_pos ⟨rfl, rfl, (lengthByte_toNat payload h).symm⟩

/-- Only the bytes of a frame the block can build are read as a request (30_encoding.md R80, R81). -/
theorem readRequest_cases (bytes : Bytes) :
    (readRequest bytes = .error .notSendable ∧
      ∀ cmd payload, payload.length ≤ 255 → bytes ≠ requestBytes cmd payload) ∨
    (∃ cmd payload, payload.length ≤ 255 ∧ readRequest bytes = .ok (cmd, payload)) := by
  cases hread : readRequest bytes with
  | error e =>
    have he : e = .notSendable := by
      unfold readRequest at hread
      split at hread
      · split at hread <;> cases hread
        rfl
      · cases hread
        rfl
    refine .inl ⟨by rw [he], fun cmd payload hfits heq => ?_⟩
    rw [heq, readRequest_requestBytes cmd payload hfits] at hread
    cases hread
  | ok request =>
    unfold readRequest at hread
    split at hread
    · rename_i sync addr len cmd payload
      split at hread
      · rename_i hrequest
        obtain ⟨-, -, hlen⟩ := hrequest
        cases hread
        exact .inr ⟨cmd, payload, by have := len.isLt; omega, rfl⟩
      · cases hread
    · cases hread

/-- A whole frame is read as its row, whatever follows it. -/
theorem decode_received (p : Params) (addr cmd ck : Byte) (payload later : Bytes) (h : payload.length ≤ 255) :
    decode p (.received (wireBytes addr cmd payload ck ++ later)) =
      .ok (receivedRow p.vocab { addr := addr, cmd := cmd, payload := payload, ck := ck }) := by
  rw [decode, readFrame_wireBytes addr cmd payload ck later h]

/-- A request is read as its row if its timeout fits the port. -/
theorem decode_sent (p : Params) (cmd : Byte) (payload : Bytes) (via : Via) (h : payload.length ≤ 255)
    (hvia : via.fits p = true) :
    decode p (.sent (requestBytes cmd payload) via) = .ok (sentRow p.vocab cmd payload via) := by
  rw [decode, readRequest_requestBytes cmd payload h]
  exact if_pos hvia

/-- Every host code but XCHG's is read whatever its operands. -/
theorem decode_port_of_ne (p : Params) (op : BitVec 4) (args : HostArgs) (h : op ≠ 0x8#4) :
    decode p (.port op args) = .ok (hostOperation op args) :=
  if_neg fun hrefused => h hrefused.1

theorem decode_port_xchg (p : Params) (args : HostArgs) :
    decode p (.port 0x8 args) =
      if timeoutFits p args.timeout = true then .ok (.xchg args.cmd args.payload args.timeout)
      else .error .timeoutTooWide := by
  cases hfits : timeoutFits p args.timeout <;> simp [decode, hfits, hostOperation]

theorem decode_port_xchg_of_fits (p : Params) (args : HostArgs) (h : timeoutFits p args.timeout = true) :
    decode p (.port 0x8 args) = .ok (.xchg args.cmd args.payload args.timeout) := by
  rw [decode_port_xchg, if_pos h]

/-! ## The order of the rows -/

theorem payloadFits_iff (payload : Bytes) : payloadFits payload = true ↔ payload.length ≤ 255 := decide_eq_true_iff

@[simp] theorem Vocabulary.unnamed_nil (v : Vocabulary) (cmd : Byte) (payload : Bytes) :
    v.unnamed cmd payload [] = true := rfl

@[simp] theorem Vocabulary.unnamed_cons (v : Vocabulary) (cmd : Byte) (payload : Bytes) (c : Command)
    (earlier : List Command) :
    v.unnamed cmd payload (c :: earlier) = (!v.names cmd payload c && v.unnamed cmd payload earlier) := rfl

/-- A command is named by its code and, at most, by its payload's length. -/
theorem Vocabulary.names_congr (v : Vocabulary) (cmd : Byte) {payload payload' : Bytes}
    (h : payload.length = payload'.length) (c : Command) : v.names cmd payload c = v.names cmd payload' c := by
  have hempty : payload.isEmpty = payload'.isEmpty := by
    rw [Bool.eq_iff_iff, List.isEmpty_iff_length_eq_zero, List.isEmpty_iff_length_eq_zero, h]
  cases c <;> simp [Vocabulary.names, hempty, h]

/-- Knock, blocks-request, arrows-request and forget carry no payload (30_encoding.md R90). -/
theorem Vocabulary.payload_eq_nil_of_names {v : Vocabulary} {cmd : Byte} {payload : Bytes} {c : Command}
    (h : v.names cmd payload c = true) (hc : c ∈ [Command.knock, .blocksRequest, .arrowsRequest, .forget]) :
    payload = [] := by
  simp only [List.mem_cons, List.not_mem_nil, or_false] at hc
  rcases hc with rfl | rfl | rfl | rfl <;>
  · simp only [Vocabulary.names, Bool.and_eq_true, List.isEmpty_iff] at h
    exact h.2

/-- A 16-bit id survives its two payload bytes (20_memory.md R61). -/
theorem learnId_learnPayload (id : BitVec 16) :
    learnId (BitVec.ofNat 8 (id.toNat % 256)) (BitVec.ofNat 8 (id.toNat / 256)) = id := by
  apply BitVec.eq_of_toNat_eq
  have := id.isLt
  simp [learnId]
  omega

/-- A payload named learn's has the two bytes the row reads. -/
theorem Vocabulary.exists_pair_of_names_learn {v : Vocabulary} {cmd : Byte} {payload : Bytes}
    (h : v.names cmd payload .learn = true) : ∃ b0 b1, payload = [b0, b1] := by
  simp only [Vocabulary.names, Bool.and_eq_true, beq_iff_eq] at h
  exact List.length_eq_two.mp h.2

/-- The rows of the requests as one chain of tests, learn's among them. -/
theorem sentRow_eq (v : Vocabulary) (cmd : Byte) (payload : Bytes) (via : Via) :
    sentRow v cmd payload via =
      if v.names cmd payload .knock then .knock via
      else if v.names cmd payload .algorithmSelect then .algorithmSelect cmd payload via
      else if v.names cmd payload .blocksRequest then .blocksRequest cmd via
      else if v.names cmd payload .arrowsRequest then .arrowsRequest cmd via
      else if v.names cmd payload .learn then .learn cmd (learnId (payload.getD 0 0) (payload.getD 1 0)) via
      else if v.names cmd payload .forget then .forget cmd via
      else .frameTx cmd payload via := by
  unfold sentRow
  cases hlearn : v.names cmd payload .learn with
  | true =>
    obtain ⟨b0, b1, rfl⟩ := Vocabulary.exists_pair_of_names_learn hlearn
    rfl
  | false => rfl

/-- What a request's bytes decode to is its own row, for each row the block sends. -/
theorem decode_encode_sent {p : Params} {i : Instr} {bytes : Bytes} {via : Via} (hwf : i.wf p = true)
    (henc : encode i = .sent bytes via) : decode p (.sent bytes via) = .ok i := by
  cases i with
  | frameTx cmd payload via =>
    cases henc
    simp only [Instr.wf, payloadFits_iff, Bool.and_eq_true, Vocabulary.unnamed_cons, Bool.not_eq_true'] at hwf
    obtain ⟨⟨hfits, hvia⟩, hrow⟩ := hwf
    rw [decode_sent p cmd payload _ hfits hvia]
    simp [sentRow_eq, hrow]
  | knock via =>
    cases henc
    rw [decode_sent p _ [] _ (by simp) hwf]
    rfl
  | algorithmSelect cmd payload via =>
    cases henc
    simp only [Instr.wf, payloadFits_iff, Bool.and_eq_true, Vocabulary.unnamed_cons, Bool.not_eq_true'] at hwf
    obtain ⟨⟨⟨hfits, hvia⟩, hnamed⟩, hrow⟩ := hwf
    rw [decode_sent p cmd payload _ hfits hvia]
    simp [sentRow_eq, hnamed, hrow]
  | blocksRequest cmd via | arrowsRequest cmd via | forget cmd via =>
    cases henc
    simp only [Instr.wf, Bool.and_eq_true, Vocabulary.unnamed_cons, Bool.not_eq_true'] at hwf
    obtain ⟨⟨hvia, hnamed⟩, hrow⟩ := hwf
    have hlearn : p.vocab.names cmd [] .learn = false := by simp [Vocabulary.names]
    rw [decode_sent p cmd [] _ (by simp) hvia]
    simp [sentRow_eq, hnamed, hrow, hlearn]
  | learn cmd id via =>
    cases henc
    have hlen : (learnPayload id).length = ([0, 0] : Bytes).length := rfl
    simp only [Instr.wf, Bool.and_eq_true, Vocabulary.unnamed_cons, Bool.not_eq_true',
      ← p.vocab.names_congr cmd hlen] at hwf
    obtain ⟨⟨hvia, hnamed⟩, halg, -⟩ := hwf
    have hnot (c : Command) (hc : c ∈ [Command.knock, .blocksRequest, .arrowsRequest, .forget]) :
        p.vocab.names cmd (learnPayload id) c = false :=
      Bool.eq_false_iff.mpr fun hnames => List.cons_ne_nil _ _ (Vocabulary.payload_eq_nil_of_names hnames hc)
    have hid : learnId ((learnPayload id).getD 0 0) ((learnPayload id).getD 1 0) = id := learnId_learnPayload id
    rw [decode_sent p cmd (learnPayload id) _ (by simp [learnPayload]) hvia]
    simp only [sentRow_eq, hnot .knock (by simp), hnot .blocksRequest (by simp), hnot .arrowsRequest (by simp), halg,
      hnamed, hid, Bool.false_eq_true, if_true, if_false]
  | _ => cases henc

/-- What a received frame decodes to is its own row, for each row the block receives, whatever follows the frame. -/
theorem decode_encode_received {p : Params} {i : Instr} {bytes : Bytes} (later : Bytes) (hwf : i.wf p = true)
    (henc : encode i = .received bytes) : decode p (.received (bytes ++ later)) = .ok i := by
  cases i with
  | frame addr cmd payload ck =>
    cases henc
    simp only [Instr.wf, payloadFits_iff, Bool.and_eq_true, Vocabulary.unnamed_cons, Bool.not_eq_true'] at hwf
    obtain ⟨hfits, hrow⟩ := hwf
    rw [decode_received p addr cmd ck payload later hfits]
    simp [receivedRow, hrow]
  | ok addr payload ck =>
    cases henc
    rw [decode_received p addr _ ck payload later ((payloadFits_iff payload).mp hwf)]
    rfl
  | blockRecord addr cmd payload ck | arrowRecord addr cmd payload ck | info addr cmd payload ck =>
    cases henc
    simp only [Instr.wf, payloadFits_iff, Bool.and_eq_true, Vocabulary.unnamed_cons, Bool.not_eq_true'] at hwf
    obtain ⟨⟨hfits, hnamed⟩, hrow⟩ := hwf
    rw [decode_received p addr cmd ck payload later hfits]
    simp [receivedRow, hnamed, hrow]
  | _ => cases henc

/-- What a host code decodes to is its own operation. -/
theorem decode_encode_port {p : Params} {i : Instr} {op : BitVec 4} {args : HostArgs} (hwf : i.wf p = true)
    (henc : encode i = .port op args) : decode p (.port op args) = .ok i := by
  cases i with
  | xchg cmd payload timeout =>
    cases henc
    exact decode_port_xchg_of_fits p _ hwf
  | frame | ok | blockRecord | arrowRecord | info | frameTx | knock | algorithmSelect | blocksRequest | arrowsRequest
  | learn | forget | tick | reset => cases henc
  | _ =>
    cases henc
    exact decode_port_of_ne p _ _ (by decide)

/-! ## What the decoder reads is well formed -/

theorem receivedRow_wf (p : Params) (f : WireFrame) (h : f.payload.length ≤ 255) :
    (receivedRow p.vocab f).wf p = true := by
  have hfits := (payloadFits_iff f.payload).mpr h
  unfold receivedRow
  split_ifs <;> simp_all [Instr.wf]

theorem sentRow_wf (p : Params) (cmd : Byte) (payload : Bytes) (via : Via) (h : payload.length ≤ 255)
    (hvia : via.fits p = true) : (sentRow p.vocab cmd payload via).wf p = true := by
  have hfits := (payloadFits_iff payload).mpr h
  rw [sentRow_eq]
  split
  · exact hvia
  split
  · simp_all [Instr.wf]
  split
  · rename_i hblocks
    obtain rfl := Vocabulary.payload_eq_nil_of_names hblocks (by simp)
    simp_all [Instr.wf]
  split
  · rename_i harrows
    obtain rfl := Vocabulary.payload_eq_nil_of_names harrows (by simp)
    simp_all [Instr.wf]
  split
  · rename_i halg _ _ hlearn
    obtain ⟨b0, b1, rfl⟩ := Vocabulary.exists_pair_of_names_learn hlearn
    have hlen : ([b0, b1] : Bytes).length = ([0, 0] : Bytes).length := rfl
    rw [p.vocab.names_congr cmd hlen] at hlearn halg
    simp_all [Instr.wf]
  split
  · rename_i hforget
    obtain rfl := Vocabulary.payload_eq_nil_of_names hforget (by simp)
    simp_all [Instr.wf]
  · simp_all [Instr.wf]

theorem hostOperation_wf (p : Params) (op : BitVec 4) (args : HostArgs)
    (h : op = 0x8#4 → timeoutFits p args.timeout = true) : (hostOperation op args).wf p = true := by
  unfold hostOperation
  split
  case h_9 hop => exact h (BitVec.eq_of_toNat_eq hop)
  all_goals rfl

/-- The decoder reads only instructions the encodings can carry. -/
theorem wf_of_decode {p : Params} {code : Code} {i : Instr} (h : decode p code = .ok i) : i.wf p = true := by
  cases code with
  | port op args =>
    rw [decode] at h
    split at h
    · cases h
    · rename_i hfits
      cases h
      exact hostOperation_wf p op args fun hop => by simpa [hop] using hfits
  | received bytes =>
    rw [decode] at h
    split at h
    · rename_i f hread
      cases h
      exact receivedRow_wf p f (readFrame_ok bytes f hread).1
    · cases h
  | sent bytes via =>
    rcases readRequest_cases bytes with ⟨hread, -⟩ | ⟨cmd, payload, hfits, hread⟩
    · simp only [decode, hread, reduceCtorEq] at h
    · simp only [decode, hread] at h
      split at h
      · rename_i hvia
        cases h
        exact sentRow_wf p cmd payload via hfits hvia
      · cases h
  | tick | reset =>
    cases h
    rfl

/-! ## The statements -/

/-- Settles O2, by the kind of code the instruction is encoded as. -/
theorem decodeInvertsEncode : Obligations.DecodeInvertsEncode := by
  intro p i hwf
  cases henc : encode i with
  | port op args => exact decode_encode_port hwf henc
  | received bytes => simpa using decode_encode_received [] hwf henc
  | sent bytes via => exact decode_encode_sent hwf henc
  | tick => cases i <;> cases henc; rfl
  | reset => cases i <;> cases henc; rfl

/-- Settles O3: the decoder's reading of a received row does not look at what follows. -/
theorem bytesAfterAReceivedFrameAreNotRead : Obligations.BytesAfterAReceivedFrameAreNotRead :=
  fun _ _ _ later hwf henc => decode_encode_received later hwf henc

/-- Settles O4: fifteen codes are read whatever their operands, and XCHG's if its timeout fits. -/
theorem hostCodesSelectTheOperations : Obligations.HostCodesSelectTheOperations := by
  intro p a
  have hread (op : BitVec 4) (h : op ≠ 0x8#4) := decode_port_of_ne p op a h
  refine ⟨hread 0x0 (by decide), hread 0x1 (by decide), hread 0x2 (by decide), hread 0x3 (by decide),
    hread 0x4 (by decide), hread 0x5 (by decide), hread 0x6 (by decide), hread 0x7 (by decide), ?_,
    hread 0x9 (by decide), hread 0xA (by decide), hread 0xB (by decide), hread 0xC (by decide),
    hread 0xD (by decide), hread 0xE (by decide), hread 0xF (by decide)⟩
  rw [decode_port_xchg]
  simp only [timeoutFits_iff]

/-- Settles O1: the words and frames are closed, and the decoder is run on each. -/
theorem writtenOutWordsDecode : Obligations.WrittenOutWordsDecode := by
  unfold Obligations.WrittenOutWordsDecode
  decide +kernel

end Sys2Proof
end

section
/-! PROOFS. The laws of the codec (40_codec_ops.md R111, R116 to R120, R127, R135, R138): the running checksum, stable
verdicts, the round trip, damaged frames, and what resynchronising drops; the settled statements O10 and O13 to
O19. -/

namespace Sys2Proof

/-! ## The checksum as a sum of bytes -/

@[simp] theorem checksum_nil : checksum [] = 0 := rfl

@[simp] theorem checksum_cons (b : Byte) (s : Bytes) : checksum (b :: s) = b + checksum s := by
  apply BitVec.eq_of_toNat_eq
  simp [checksum_toNat]

theorem foldl_add_eq_checksum (register : Byte) (s : Bytes) :
    s.foldl (fun register b => register + b) register = register + checksum s := by
  induction s generalizing register with
  | nil => simp
  | cons b s ih => rw [List.foldl_cons, ih, checksum_cons, BitVec.add_assoc]

theorem checksum_perm {s t : Bytes} (h : s.Perm t) : checksum s = checksum t := by
  rw [checksum, checksum, byteSum_eq_sum, byteSum_eq_sum, (h.map BitVec.toNat).sum_eq]

/-- Replacing one byte by a different one changes the checksum. -/
theorem checksum_set_ne {s : Bytes} {j : Nat} {b : Byte} (h : j < s.length) (hb : b ≠ s.getD j 0) :
    checksum (s.set j b) ≠ checksum s := by
  induction s generalizing j with
  | nil => simp at h
  | cons c s ih =>
    cases j with
    | zero => simpa using hb
    | succ j => simpa using ih (Nat.lt_of_succ_lt_succ h) hb

/-! ## The search for a sync byte, in a longer buffer -/

theorem bytesBeforeSync_append_of_lt (s later : Bytes) (h : bytesBeforeSync s < s.length) :
    bytesBeforeSync (s ++ later) = bytesBeforeSync s := by
  induction s with
  | nil => simp at h
  | cons b s ih =>
    simp only [List.cons_append, bytesBeforeSync] at h ⊢
    split_ifs with hb
    · rfl
    · rw [if_neg hb] at h
      rw [ih (by simp at h; omega)]

theorem bytesBeforeSync_le_append (s later : Bytes) : bytesBeforeSync s ≤ bytesBeforeSync (s ++ later) := by
  induction s with
  | nil => simp [bytesBeforeSync]
  | cons b s ih =>
    simp only [List.cons_append, bytesBeforeSync]
    split_ifs
    · rfl
    · omega

end Sys2Proof

namespace Sys2Proof.Machine

/-! ## Decode, verdict by verdict -/

/-- A frame at the front of a buffer is judged, whatever follows it. -/
theorem decodeBuffer_wireBytes (addr cmd ck : Byte) (payload later : Bytes) (strict : Bool)
    (h : payload.length ≤ 255) :
    decodeBuffer (wireBytes addr cmd payload ck ++ later) strict =
      judge strict { addr := addr, cmd := cmd, payload := payload, ck := ck } :=
  decodeBuffer_of_frame _ strict _ (readFrame_wireBytes addr cmd payload ck later h)

/-- A frame with the matching checksum is delivered, strict or not. -/
theorem judge_of_matching (strict : Bool) (addr cmd : Byte) (payload : Bytes) :
    judge strict { addr := addr, cmd := cmd, payload := payload, ck := frameChecksum addr cmd payload } =
      .frame { addr := addr, plen := lengthByte payload, cmd := cmd, payload := payload,
               ck := frameChecksum addr cmd payload, ckOk := true, consumed := 5 + payload.length } := by
  simp [judge, WireFrame.ckOk, frameLength]

theorem encodeFrame_length (cmd : Byte) (payload : Bytes) : (encodeFrame cmd payload).length = 5 + payload.length := by
  rw [encodeFrame_eq_wireBytes, wireBytes_length, frameLength]

theorem decodeBuffer_encodeFrame (cmd : Byte) (payload later : Bytes) (strict : Bool) (h : payload.length ≤ 255) :
    decodeBuffer (encodeFrame cmd payload ++ later) strict =
      .frame { addr := 0x11, plen := BitVec.ofNat 8 payload.length, cmd := cmd, payload := payload,
               ck := frameChecksum 0x11 cmd payload, ckOk := true, consumed := 5 + payload.length } := by
  rw [encodeFrame_eq_wireBytes, decodeBuffer_wireBytes _ _ _ _ _ _ h]
  exact judge_of_matching strict _ cmd payload

theorem judge_ne_incomplete (strict : Bool) (f : WireFrame) : judge strict f ≠ .incomplete := by
  rcases judge_cases strict f with ⟨h, -⟩ | ⟨h, -⟩ <;> simp [h]

theorem judge_ne_desynchronized (strict : Bool) (f : WireFrame) (k : Nat) : judge strict f ≠ .desynchronized k := by
  rcases judge_cases strict f with ⟨h, -⟩ | ⟨h, -⟩ <;> simp [h]

/-- Incomplete: fewer bytes than the shortest frame, or than the declared length needs. -/
theorem length_of_incomplete {buf : Bytes} {strict : Bool} (h : decodeBuffer buf strict = .incomplete) :
    buf.length < 260 := by
  rcases decodeBuffer_cases buf strict with ⟨-, hshort | ⟨_, len, _, -, hpartial⟩⟩ | ⟨_, _, -, -, -, hv⟩ |
    ⟨f, _, -, -, -, hv⟩
  · omega
  · have := len.isLt
    omega
  · rw [hv] at h
    cases h
  · exact absurd (hv.symm.trans h) (judge_ne_incomplete strict f)

/-- A legal capacity holds the longest frame (00_scope.md R9). -/
theorem le_capacity_of_legal {p : Params} {cap : Nat} (h : p.legal = true) (hcap : p.accCap = some cap) :
    260 ≤ cap := by
  simp only [Params.legal, hcap, Bool.and_eq_true, decide_eq_true_eq, Config.MAX_FRAME_eq] at h
  obtain ⟨⟨⟨hfits, -⟩, -⟩, -⟩ := h
  exact hfits

/-- Desynchronized: the first byte is not the sync byte, and the count reaches to the next one. -/
theorem exists_of_desynchronized {buf : Bytes} {strict : Bool} {k : Nat}
    (h : decodeBuffer buf strict = .desynchronized k) :
    ∃ b rest, buf = b :: rest ∧ b ≠ Config.SYNC ∧ 4 ≤ rest.length ∧ k = 1 + bytesBeforeSync rest := by
  rcases decodeBuffer_cases buf strict with ⟨hv, -⟩ | ⟨b, rest, hbuf, hsync, h4, hv⟩ | ⟨f, _, -, -, -, hv⟩
  · rw [hv] at h
    cases h
  · rw [hv] at h
    cases h
    exact ⟨b, rest, hbuf, hsync, h4, rfl⟩
  · exact absurd (hv.symm.trans h) (judge_ne_desynchronized strict f k)

/-- Any other verdict is the judgement of the frame that stands in front. -/
theorem exists_frame_of_judged {buf : Bytes} {strict : Bool} {v : Verdict} (hv : decodeBuffer buf strict = v)
    (hincomplete : v ≠ .incomplete) (hdesync : ∀ k, v ≠ .desynchronized k) :
    ∃ f later, readFrame buf = .ok f ∧ f.payload.length ≤ 255 ∧
      buf = wireBytes f.addr f.cmd f.payload f.ck ++ later ∧ judge strict f = v := by
  rcases decodeBuffer_cases buf strict with ⟨h, -⟩ | ⟨_, _, -, -, -, h⟩ | ⟨f, later, hread, hfits, hbuf, h⟩
  · exact absurd (hv.symm.trans h) hincomplete
  · exact absurd (hv.symm.trans h) (hdesync _)
  · exact ⟨f, later, hread, hfits, hbuf, h.symm.trans hv⟩

/-- The judgement of a frame stands when bytes are appended. -/
theorem decodeBuffer_append_of_judged {buf : Bytes} {strict : Bool} {v : Verdict} (later : Bytes)
    (hv : decodeBuffer buf strict = v) (hincomplete : v ≠ .incomplete) (hdesync : ∀ k, v ≠ .desynchronized k) :
    decodeBuffer (buf ++ later) strict = v := by
  obtain ⟨f, tail, -, hfits, hbuf, hjudge⟩ := exists_frame_of_judged hv hincomplete hdesync
  rw [hbuf, List.append_assoc, decodeBuffer_wireBytes _ _ _ _ _ _ hfits]
  exact hjudge

/-- Relaxed mode delivers every frame. -/
theorem judge_relaxed (f : WireFrame) :
    judge false f =
      .frame { addr := f.addr, plen := lengthByte f.payload, cmd := f.cmd, payload := f.payload, ck := f.ck,
               ckOk := f.ckOk, consumed := frameLength f.payload } :=
  if_neg fun hrejected => Bool.false_ne_true hrejected.2

/-! ## Damaged frames in strict mode (40_codec_ops.md R120) -/

/-- A frame whose last byte is not the checksum of the bytes between it and the sync byte. -/
theorem decodeBuffer_of_bad_checksum (covered : Bytes) (ck : Byte)
    (hlen : covered.length = 3 + (covered.getD 1 0).toNat) (hck : checksum covered ≠ ck) :
    decodeBuffer (Config.SYNC :: (covered ++ [ck])) true =
      .checksumMismatch (2 + covered.length) (checksum covered) ck := by
  match covered, hlen, hck with
  | addr :: len :: cmd :: payload, hlen, hck =>
    have hpayload : payload.length = len.toNat := by simp at hlen; omega
    have htake : (payload ++ [ck]).take len.toNat = payload := by rw [← hpayload, List.take_left]
    have hget : (payload ++ [ck]).getD len.toNat 0 = ck := by rw [← hpayload]; simp
    rw [List.cons_append, List.cons_append, List.cons_append,
      decodeBuffer_of_whole addr len cmd (payload ++ [ck]) true (by simp; omega), htake, hget,
      judge_eq true addr len cmd ck payload hpayload, if_pos ⟨hck, rfl⟩, ← hpayload]
    simp only [List.length_cons]
    congr 1
    omega
  | [], hlen, _ => simp at hlen
  | [_], hlen, _ => simp at hlen
  | [_, _], hlen, _ => simp at hlen; omega

/-- A byte the checksum covers is damaged, and the declared length is not. -/
theorem decodeBuffer_of_damaged_covered {covered : Bytes} {i : Nat} {b : Byte}
    (hlen : covered.length = 3 + (covered.getD 1 0).toNat) (hi : i < covered.length) (h1 : i ≠ 1)
    (hb : b ≠ covered.getD i 0) :
    ∃ e g, decodeBuffer ((Config.SYNC :: (covered ++ [checksum covered])).set (i + 1) b) true =
      .checksumMismatch (2 + covered.length) e g := by
  have hdeclared : (covered.set i b).getD 1 0 = covered.getD 1 0 := by
    simp [List.getElem?_set_ne h1]
  have hbad := decodeBuffer_of_bad_checksum (covered.set i b) (checksum covered)
    (by rw [List.length_set, hdeclared, hlen]) (checksum_set_ne hi hb)
  rw [List.length_set] at hbad
  rw [List.set_cons_succ, List.set_append_left i b hi]
  exact ⟨_, _, hbad⟩

/-- The checksum byte is damaged. -/
theorem decodeBuffer_of_damaged_checksum {covered : Bytes} {b : Byte}
    (hlen : covered.length = 3 + (covered.getD 1 0).toNat) (hb : b ≠ checksum covered) :
    ∃ e g, decodeBuffer ((Config.SYNC :: (covered ++ [checksum covered])).set (covered.length + 1) b) true =
      .checksumMismatch (2 + covered.length) e g := by
  refine ⟨checksum covered, b, ?_⟩
  rw [← decodeBuffer_of_bad_checksum covered b hlen hb.symm, List.set_cons_succ,
    List.set_append_right _ _ le_rfl, Nat.sub_self, List.set_cons_zero]

/-- The bytes of a frame the block sends that its checksum covers (30_encoding.md R83). -/
def coveredBytes (cmd : Byte) (payload : Bytes) : Bytes := [Config.ADDR, lengthByte payload, cmd] ++ payload

theorem encodeFrame_eq_covered (cmd : Byte) (payload : Bytes) :
    encodeFrame cmd payload = Config.SYNC :: (coveredBytes cmd payload ++ [checksum (coveredBytes cmd payload)]) := rfl

theorem coveredBytes_length (cmd : Byte) (payload : Bytes) :
    (coveredBytes cmd payload).length = 3 + payload.length := by
  rw [coveredBytes, List.length_append]
  rfl

theorem coveredBytes_declares_length (cmd : Byte) (payload : Bytes) (h : payload.length ≤ 255) :
    (coveredBytes cmd payload).length = 3 + ((coveredBytes cmd payload).getD 1 0).toNat :=
  (coveredBytes_length cmd payload).trans (congrArg (3 + ·) (lengthByte_toNat payload h).symm)

/-- Changing one bit of a byte gives another byte. -/
theorem xor_bit_ne (b : Byte) {bit : Nat} (h : bit < 8) : b ^^^ BitVec.ofNat 8 (2 ^ bit) ≠ b := by
  intro heq
  have hzero : BitVec.ofNat 8 (2 ^ bit) = 0 := by simpa [← BitVec.xor_assoc] using congrArg (b ^^^ ·) heq
  have hpow : 2 ^ bit < 2 ^ 8 := Nat.pow_lt_pow_right (by decide) h
  have hnat : 2 ^ bit % 2 ^ 8 = 0 := congrArg BitVec.toNat hzero
  rw [Nat.mod_eq_of_lt hpow] at hnat
  exact absurd hnat (Nat.two_pow_pos bit).ne'

/-- Changing a bit from 0 to 1 gives a larger number. -/
theorem toNat_lt_xor_bit (b : Byte) {bit : Nat} (h : bit < 8) (hclear : b.getLsbD bit = false) :
    b.toNat < (b ^^^ BitVec.ofNat 8 (2 ^ bit)).toNat := by
  have hpow : 2 ^ bit < 2 ^ 8 := Nat.pow_lt_pow_right (by decide) h
  rw [BitVec.toNat_xor, BitVec.toNat_ofNat, Nat.mod_eq_of_lt hpow]
  have hclear : b.toNat.testBit bit = false := hclear
  refine Nat.lt_of_testBit bit hclear ?_ fun j hj => ?_
  · simp [hclear, Nat.testBit_two_pow_self]
  · simp [Nat.testBit_two_pow_of_ne hj.ne]

/-! ## Resynchronising over garbage -/

/-- What begins with the sync byte is left whole behind garbage that holds none. -/
theorem resync_garbage {garbage : Bytes} (rest : Bytes) (strict : Bool) (h : ∀ b ∈ garbage, b ≠ Config.SYNC)
    (h4 : 4 ≤ rest.length) : resync (garbage ++ Config.SYNC :: rest) strict = Config.SYNC :: rest := by
  cases garbage with
  | nil => exact resyncRounds_of_settled strict _ _ (decodeBuffer_sync_ne_desynchronized rest strict)
  | cons b garbage =>
    have hbefore : bytesBeforeSync (garbage ++ Config.SYNC :: rest) = garbage.length := by
      rw [bytesBeforeSync_append_of_forall_ne garbage _ fun c hc => h c (List.mem_cons_of_mem b hc)]
      simp [bytesBeforeSync]
    rw [List.cons_append, resync_of_desynchronized b _ strict (by simp; omega) (h b List.mem_cons_self), hbefore,
      List.drop_left]

/-- RECV and the attempt come to the frame behind garbage that holds no sync byte. -/
theorem resync_garbage_encodeFrame {garbage : Bytes} (cmd : Byte) (payload later : Bytes) (strict : Bool)
    (h : ∀ b ∈ garbage, b ≠ Config.SYNC) :
    resync (garbage ++ (encodeFrame cmd payload ++ later)) strict = encodeFrame cmd payload ++ later :=
  resync_garbage _ strict h (by simp; omega)

/-! ## The statements -/

/-- Settles O10: both sides are the sum of the bytes, in the order of the list or in any other. -/
theorem checksumIsARunningRegisterInAnyOrder : Obligations.ChecksumIsARunningRegisterInAnyOrder := by
  intro s t
  refine ⟨?_, checksum_perm⟩
  rw [foldl_add_eq_checksum]
  exact (BitVec.zero_add _).symm

/-- Settles O13: a judged frame is the same frame in the longer buffer, and the search for a sync byte stops where
it stopped, or goes on where it found none. -/
theorem verdictsAreStableUnderLaterBytes : Obligations.VerdictsAreStableUnderLaterBytes := by
  intro buf later strict
  refine ⟨fun f hv => ?_, fun span e g hv => ?_, fun k hv hk => ?_, fun hv => ?_⟩
  · exact decodeBuffer_append_of_judged later hv nofun nofun
  · exact decodeBuffer_append_of_judged later hv nofun nofun
  · obtain ⟨b, rest, rfl, hsync, h4, rfl⟩ := exists_of_desynchronized hv
    rw [List.cons_append, decodeBuffer_of_noSync b _ strict (by simp; omega) hsync,
      bytesBeforeSync_append_of_lt rest later (by simp at hk; omega)]
  · obtain ⟨b, rest, rfl, hsync, h4, hk⟩ := exists_of_desynchronized hv
    have hle := bytesBeforeSync_le_append rest later
    exact ⟨_, decodeBuffer_of_noSync b (rest ++ later) strict (by simp; omega) hsync, by omega⟩

/-- Settles O14: both frames are wire bytes with the matching checksum. -/
theorem decodeOfEncodeIsTheFrame : Obligations.DecodeOfEncodeIsTheFrame := by
  intro addr cmd payload later strict hfits
  refine ⟨decodeBuffer_encodeFrame cmd payload later strict hfits, ?_⟩
  rw [decodeBuffer_wireBytes _ _ _ _ _ _ hfits]
  exact judge_of_matching strict addr cmd payload

/-- Settles O15, by where the damaged byte stands: the sync byte, the bytes the checksum covers, the checksum itself,
the length byte. -/
theorem singleBitErrorsAreDetectedButInTheLength : Obligations.SingleBitErrorsAreDetectedButInTheLength := by
  intro cmd payload bit hfits hbit frame damaged
  have hframe : frame = Config.SYNC :: (coveredBytes cmd payload ++ [checksum (coveredBytes cmd payload)]) :=
    encodeFrame_eq_covered cmd payload
  have hlen := coveredBytes_length cmd payload
  have hdeclared := coveredBytes_declares_length cmd payload hfits
  have hspan : 2 + (coveredBytes cmd payload).length = 5 + payload.length := by omega
  refine ⟨?_, fun j hj => ?_, fun hclear => ?_⟩
  · obtain ⟨-, hsteps, -, -⟩ := decodeFollowsItsFiveSteps (damaged 0) true
    have hdamaged : (damaged 0).length = 5 + payload.length := by
      rw [← encodeFrame_length cmd payload]
      exact List.length_set
    rw [← hdamaged]
    exact hsteps (by omega) (xor_bit_ne Config.SYNC hbit)
  · obtain ⟨i, rfl⟩ : ∃ i, j = i + 1 := Nat.exists_eq_add_of_le' (by omega)
    rw [← hspan]
    rcases Nat.lt_or_ge i (coveredBytes cmd payload).length with hi | hi
    · have hget : frame.getD (i + 1) 0 = (coveredBytes cmd payload).getD i 0 := by
        rw [hframe]
        simp [List.getElem?_append_left hi]
      simp only [damaged, hget]
      exact decodeBuffer_of_damaged_covered hdeclared hi (by omega) (xor_bit_ne _ hbit)
    · obtain rfl : i = (coveredBytes cmd payload).length := by omega
      have hget : frame.getD ((coveredBytes cmd payload).length + 1) 0 = checksum (coveredBytes cmd payload) := by
        rw [hframe]
        simp
      simp only [damaged, hget]
      exact decodeBuffer_of_damaged_checksum hdeclared (xor_bit_ne _ hbit)
  · have hgrows := toNat_lt_xor_bit (lengthByte payload) hbit hclear
    rw [lengthByte_toNat payload hfits] at hgrows
    refine decodeBuffer_of_partial Config.ADDR _ cmd
      (payload ++ [frameChecksum Config.ADDR cmd payload]) true ?_
    rw [List.length_append, List.length_singleton]
    exact hgrows

/-- Settles O16: one frame is judged in both modes, and only strict mode rejects. -/
theorem acceptanceIsNeverSilent : Obligations.AcceptanceIsNeverSilent := by
  intro buf
  refine ⟨fun f hv => ?_, fun span e g hv => ?_, fun f hv hbad => ?_⟩ <;>
    obtain ⟨w, -, hread, -, -, hjudge⟩ := exists_frame_of_judged hv nofun nofun
  · rcases judge_cases true w with ⟨hj, -⟩ | ⟨hj, hok⟩ <;> rw [hj] at hjudge <;> cases hjudge
    simpa using hok
  · rw [judge_relaxed] at hjudge
    cases hjudge
  · rw [judge_relaxed] at hjudge
    cases hjudge
    rw [decodeBuffer_of_frame buf true w hread]
    exact if_pos ⟨hbad, rfl⟩

/-- Settles O17: an Incomplete buffer is shorter than the longest frame, and a legal capacity is not. -/
theorem incompleteLeavesRoom : Obligations.IncompleteLeavesRoom := by
  intro s strict hlegal hv
  have hlen := length_of_incomplete hv
  exact ⟨hlen, fun cap hcap => hlen.trans_le (le_capacity_of_legal hlegal hcap)⟩

/-- Settles O18, by whether the buffer is desynchronised. -/
theorem resynchronisingEndsAndDropsNoSyncByte : Obligations.ResynchronisingEndsAndDropsNoSyncByte := by
  intro buf strict
  refine ⟨decodeBuffer_resync_ne_desynchronized buf strict, ?_, fun hsettled =>
    resyncRounds_of_settled strict _ buf hsettled⟩
  rcases resync_cases buf strict with ⟨-, hkept⟩ | ⟨b, rest, rfl, hsync, -, hdropped⟩
  · exact ⟨[], by simp [hkept]⟩
  · refine ⟨b :: rest.take (bytesBeforeSync rest), ?_, ?_, fun _ => ?_⟩
    · rw [hdropped, List.cons_append, List.take_append_drop]
    · simp only [List.forall_mem_cons]
      exact ⟨hsync, mem_take_bytesBeforeSync rest⟩
    · rw [hdropped]
      rcases drop_bytesBeforeSync rest with hnil | ⟨tail, hfound⟩
      · exact .inl hnil
      · exact .inr (by rw [hfound]; rfl)

/-- Settles O19: a proper piece is too short for a header or for the declared length. -/
theorem everyProperPieceOfAFrameIsIncomplete : Obligations.EveryProperPieceOfAFrameIsIncomplete := by
  intro cmd payload strict k hfits
  have hwhole := decodeBuffer_encodeFrame cmd payload [] strict hfits
  rw [List.append_nil] at hwhole
  refine ⟨fun hk => ?_, _, hwhole, rfl, rfl⟩
  rcases Nat.lt_or_ge k 5 with hshort | h5
  · exact decodeBuffer_of_short _ strict (by simp; omega)
  · obtain ⟨n, rfl⟩ := Nat.exists_eq_add_of_le' (Nat.le_of_succ_le h5)
    refine decodeBuffer_of_partial Config.ADDR (lengthByte payload) cmd
      ((payload ++ [frameChecksum Config.ADDR cmd payload]).take n) strict ?_
    rw [lengthByte_toNat payload hfits]
    simp
    omega

end Sys2Proof.Machine
end

section
/-! PROOFS. The step (00_scope.md R5): what each input comes to, RECV and the received frames (40_codec_ops.md R135),
the frames the block sends, and the refusals; the settled statements O5 to O8, O20 to O25, O33, O34 and O55. -/

namespace Sys2Proof.Machine

/-! ## What the next input comes to -/

theorem step_of_no_input {s : State} (h : s.inputs = []) : step s = .next s := by
  simp [step, fetch, h]

section
variable {s : State} {rest : List Input}

theorem fetch_host {op : BitVec 4} {args : HostArgs} (h : s.inputs = .host op args :: rest) :
    fetch s = some (.run (.port op args) (s.setInputs rest)) := by simp [fetch, h]

theorem fetch_request {bytes : Bytes} {via : Via} (h : s.inputs = .request bytes via :: rest) :
    fetch s = some (.run (.sent bytes via) (s.setInputs rest)) := by simp [fetch, h]

theorem fetch_recv (h : s.inputs = .recv :: rest) : fetch s = some (fetchReceived (s.setInputs rest)) := by
  simp [fetch, h]

theorem fetch_command {c : Pseudo} {timeout : Nat} (h : s.inputs = .command c timeout :: rest) :
    fetch s = some (.run (expandPseudo s.params.vocab timeout c) (s.setInputs rest)) := by simp [fetch, h]

theorem fetch_await_of_busy (h : s.inputs = .await :: rest) (hbusy : s.busy = true) :
    fetch s = some (.run .tick s) := by simp [fetch, h, fetchAwait, hbusy]

theorem fetch_await_of_idle (h : s.inputs = .await :: rest) (hidle : s.busy = false) :
    fetch s = some (.run (.port 0x9 HostArgs.zero) (s.setInputs rest)) := by simp [fetch, h, fetchAwait, hidle]

theorem fetch_tick (h : s.inputs = .tick :: rest) : fetch s = some (.run .tick (s.setInputs rest)) := by
  simp [fetch, h]

theorem fetch_reset (h : s.inputs = .reset :: rest) : fetch s = some (.run .reset (s.setInputs rest)) := by
  simp [fetch, h]

theorem fetch_arrive {bytes : Bytes} (h : s.inputs = .arrive bytes :: rest) :
    fetch s = some (.done (arriveOp (s.setInputs rest) bytes)) := by simp [fetch, h]

theorem fetch_closeLink (h : s.inputs = .closeLink :: rest) : fetch s = some (.done (closeOp (s.setInputs rest))) := by
  simp [fetch, h]

theorem fetch_openLink (h : s.inputs = .openLink :: rest) : fetch s = some (.done (openOp (s.setInputs rest))) := by
  simp [fetch, h]

end

section
variable {s u : State}

theorem step_of_done (h : fetch s = some (.done u)) : step s = .next u := by simp [step, h]

theorem step_of_run {code : Code} {i : Instr} (h : fetch s = some (.run code u))
    (hread : decode u.params code = .ok i) : step s = exec i u := by simp [step, h, hread]

theorem step_of_rejected {code : Code} {why : DecodeError} (h : fetch s = some (.run code u))
    (hread : decode u.params code = .error why) : step s = .refused (.notExpressible why) := by simp [step, h, hread]

theorem step_of_tick {rest : List Input} (h : s.inputs = .tick :: rest) : step s = exec .tick (s.setInputs rest) :=
  step_of_run (fetch_tick h) rfl

theorem step_of_recv_done {rest : List Input} (h : s.inputs = .recv :: rest)
    (hdone : fetchReceived (s.setInputs rest) = .done u) : step s = .next u :=
  step_of_done (by rw [fetch_recv h, hdone])

end

/-! ## RECV and the received frames -/

/-- A frame that can be read is judged, so it is neither Incomplete nor Desynchronized. -/
theorem decodeBuffer_ne_of_readFrame {buf : Bytes} {f : WireFrame} (strict : Bool) (h : readFrame buf = .ok f) :
    decodeBuffer buf strict ≠ .incomplete ∧ ∀ k, decodeBuffer buf strict ≠ .desynchronized k := by
  rw [decodeBuffer_of_frame buf strict f h]
  exact ⟨judge_ne_incomplete strict f, judge_ne_desynchronized strict f⟩

/-- Nothing is dropped from a buffer with a frame in front. -/
theorem resync_of_readFrame {buf : Bytes} {f : WireFrame} (strict : Bool) (h : readFrame buf = .ok f) :
    resync buf strict = buf :=
  resyncRounds_of_settled strict _ buf (decodeBuffer_ne_of_readFrame strict h).2

/-- A buffer that resynchronises to a frame is not Incomplete, for then nothing would be dropped. -/
theorem decodeBuffer_ne_incomplete_of_resync {buf : Bytes} {strict : Bool}
    (h : decodeBuffer (resync buf strict) strict ≠ .incomplete) : decodeBuffer buf strict ≠ .incomplete := by
  rcases resync_cases buf strict with ⟨-, hkept⟩ | ⟨b, r, rfl, hsync, h4, -⟩
  · rwa [hkept] at h
  · rw [decodeBuffer_of_noSync b r strict h4 hsync]
    exact nofun

/-- RECV comes to the frame that resynchronising leaves in front. -/
theorem fetchReceived_of_readFrame {s : State} {f : WireFrame} (hidle : s.busy = false)
    (hread : readFrame (resync s.acc s.strict) = .ok f) :
    fetchReceived s = .run (.received (resync s.acc s.strict)) (s.setAcc (resync s.acc s.strict)) := by
  have hjudged := (decodeBuffer_ne_of_readFrame s.strict hread).1
  rcases fetchReceived_cases s with ⟨h, -⟩ | ⟨-, h, -⟩ | ⟨-, -, h, -⟩ | ⟨-, -, -, h⟩
  · exact absurd h (decodeBuffer_ne_incomplete_of_resync hjudged)
  · exact absurd (hidle.symm.trans h) Bool.false_ne_true
  · exact absurd h hjudged
  · exact h

/-- A received frame is run as the row it was read as, and every row judges and removes it alike
(30_encoding.md R92). -/
theorem exec_receivedRow (v : Vocabulary) (f : WireFrame) (s : State) :
    exec (receivedRow v f) s = .next (receiveOp f s) := by
  by_cases hok : v.names f.cmd f.payload .ok = true
  · have hcmd : f.cmd = Config.CC_OK := beq_iff_eq.mp hok
    have hframe : f = { addr := f.addr, cmd := Config.CC_OK, payload := f.payload, ck := f.ck } := by rw [← hcmd]
    rw [receivedRow, if_pos hok]
    exact congrArg (fun g => Host.Outcome.next (receiveOp g s)) hframe.symm
  · rw [receivedRow, if_neg hok]
    split_ifs <;> rfl

/-- A frame at the front of the accumulator is judged, and what follows it is left. -/
theorem receiveOp_of_front {s : State} (addr cmd ck : Byte) (payload later : Bytes) (hidle : s.busy = false)
    (hacc : s.acc = wireBytes addr cmd payload ck ++ later) :
    receiveOp { addr := addr, cmd := cmd, payload := payload, ck := ck } s =
      { s with acc := later,
               resp := .verdict (judge s.strict { addr := addr, cmd := cmd, payload := payload, ck := ck }) } := by
  have hdrop : s.acc.drop (frameLength payload) = later := by
    rw [hacc, ← wireBytes_length addr cmd payload ck, List.drop_left]
  have hheld : ¬ s.acc.length < frameLength payload := by
    rw [hacc, List.length_append, wireBytes_length]
    omega
  rw [receiveOp, if_neg (by simp [hidle]), if_neg hheld, dropOp, hdrop]
  rfl

/-- RECV delivers the frame that resynchronising leaves in front, and leaves what follows it. -/
theorem step_recv_of_frame {s : State} {rest : List Input} (addr cmd ck : Byte) (payload later : Bytes)
    (hinputs : s.inputs = .recv :: rest) (hidle : s.busy = false) (hfits : payload.length ≤ 255)
    (hacc : resync s.acc s.strict = wireBytes addr cmd payload ck ++ later) :
    step s = .next { s with
      acc := later, inputs := rest,
      resp := .verdict (judge s.strict { addr := addr, cmd := cmd, payload := payload, ck := ck }) } := by
  have hread : readFrame (resync s.acc s.strict) = .ok { addr := addr, cmd := cmd, payload := payload, ck := ck } := by
    rw [hacc]
    exact readFrame_wireBytes addr cmd payload ck later hfits
  have hfetch : fetch s = some (.run (.received (resync s.acc s.strict))
      ((s.setInputs rest).setAcc (resync s.acc s.strict))) := by
    rw [fetch_recv hinputs]
    exact congrArg some (fetchReceived_of_readFrame (s := s.setInputs rest) hidle hread)
  rw [step_of_run hfetch (i := receivedRow s.params.vocab { addr := addr, cmd := cmd, payload := payload, ck := ck })
    (by rw [hacc]; exact decode_received _ addr cmd ck payload later hfits), exec_receivedRow,
    receiveOp_of_front (s := (s.setInputs rest).setAcc (resync s.acc s.strict)) addr cmd ck payload later hidle hacc]
  rfl

/-- The same for a frame Encode built: its verdict is the Frame. -/
theorem step_recv_of_encodeFrame {s : State} {rest : List Input} (cmd : Byte) (payload later : Bytes)
    (hinputs : s.inputs = .recv :: rest) (hidle : s.busy = false) (hfits : payload.length ≤ 255)
    (hacc : resync s.acc s.strict = encodeFrame cmd payload ++ later) :
    step s = .next { s with
      acc := later, inputs := rest,
      resp := .verdict (.frame
        { addr := 0x11, plen := BitVec.ofNat 8 payload.length, cmd := cmd, payload := payload,
          ck := frameChecksum 0x11 cmd payload, ckOk := true, consumed := 5 + payload.length }) } := by
  rw [step_recv_of_frame _ cmd _ payload later hinputs hidle hfits hacc, judge_of_matching]
  rfl

/-- A buffer with a frame Encode built in front resynchronises to itself. -/
theorem resync_encodeFrame (cmd : Byte) (payload later : Bytes) (strict : Bool) :
    resync (encodeFrame cmd payload ++ later) strict = encodeFrame cmd payload ++ later :=
  resync_garbage_encodeFrame (garbage := []) cmd payload later strict (by simp)

/-! ## The frames the block sends -/

theorem sendOp_of_open {s : State} (cmd : Byte) {payload : Bytes} (hidle : s.busy = false) (hopen : s.tOpen = true)
    (hfits : payload.length ≤ 255) :
    sendOp cmd payload s = { s with txlog := s.txlog ++ encodeFrame cmd payload, resp := .status .ok } := by
  rw [sendOp, if_neg (by simp [hidle]), if_neg (by simp [payloadTooLong]; omega), if_neg (by simp [hopen])]
  rfl

/-- A request without a payload, byte for byte (30_encoding.md R90). -/
theorem encodeFrame_nil (cmd : Byte) : encodeFrame cmd [] = [0x55, 0x11, 0x00, cmd, 0x11 + cmd] := by
  simp [encodeFrame, requestBytes, frameChecksum, lengthByte, Config.SYNC_eq, Config.ADDR_eq]

/-- The id travels least significant byte first (30_encoding.md R91). -/
theorem learnPayload_eq_extract (id : BitVec 16) : learnPayload id = [id.extractLsb' 0 8, id.extractLsb' 8 8] := by
  have hlow : BitVec.ofNat 8 (id.toNat % 256) = id.extractLsb' 0 8 := by
    apply BitVec.eq_of_toNat_eq
    simp
  have hhigh : BitVec.ofNat 8 (id.toNat / 256) = id.extractLsb' 8 8 := by
    apply BitVec.eq_of_toNat_eq
    simp [Nat.shiftRight_eq_div_pow]
  rw [learnPayload, hlow, hhigh]

/-- A two-byte request, byte for byte. -/
theorem encodeFrame_pair (cmd b0 b1 : Byte) :
    encodeFrame cmd [b0, b1] = [0x55, 0x11, 0x02, cmd, b0, b1, 0x13 + cmd + b0 + b1] := by
  have hsum : 0x11#8 + (0x02#8 + (cmd + (b0 + b1))) = 0x13#8 + cmd + b0 + b1 := by
    simp only [← BitVec.add_assoc]
    rfl
  simp [encodeFrame, requestBytes, frameChecksum, lengthByte, Config.SYNC_eq, Config.ADDR_eq, hsum]

/-! ## The refusals of the decoder -/

/-- A pseudo-operation is XCHG's code with its own command byte and payload (41_correlator_ops.md R161). -/
theorem expandPseudo_eq (v : Vocabulary) (timeout : Nat) (c : Pseudo) :
    ∃ cmd payload, expandPseudo v timeout c =
      .port 0x8 { HostArgs.zero with cmd := cmd, payload := payload, timeout := timeout } := by
  cases c <;> exact ⟨_, _, rfl⟩

theorem timeoutFits_eq_false_iff (p : Params) (timeout : Nat) :
    timeoutFits p timeout = false ↔ p.hasCorr = true ∧ 2 ^ p.timerW ≤ timeout := by
  rw [← Bool.not_eq_true, timeoutFits_iff]
  simp

/-- A host code is read, or is XCHG with a timeout that does not fit. -/
theorem decode_port_cases (p : Params) (op : BitVec 4) (args : HostArgs) :
    (∃ i, decode p (.port op args) = .ok i) ∨
    (decode p (.port op args) = .error .timeoutTooWide ∧ op = 0x8 ∧ p.hasCorr = true ∧
      2 ^ p.timerW ≤ args.timeout) := by
  by_cases hop : op = 0x8#4
  · subst hop
    cases hfits : timeoutFits p args.timeout with
    | true => exact .inl ⟨_, decode_port_xchg_of_fits p args hfits⟩
    | false =>
      obtain ⟨hcorr, hwide⟩ := (timeoutFits_eq_false_iff p args.timeout).mp hfits
      exact .inr ⟨(decode_port_xchg p args).trans (if_neg (by simp [hfits])), rfl, hcorr, hwide⟩
  · exact .inl ⟨_, decode_port_of_ne p op args hop⟩

/-- A request is read, or its timeout does not fit, or the block cannot build its frame. -/
theorem decode_sent_cases (p : Params) (bytes : Bytes) (via : Via) :
    (∃ i, decode p (.sent bytes via) = .ok i) ∨
    (decode p (.sent bytes via) = .error .timeoutTooWide ∧ p.hasCorr = true ∧
      ∃ timeout, via = .exchange timeout ∧ 2 ^ p.timerW ≤ timeout) ∨
    (decode p (.sent bytes via) = .error .notSendable ∧
      ∀ cmd payload, payload.length ≤ 255 → bytes ≠ requestBytes cmd payload) := by
  rcases readRequest_cases bytes with ⟨hread, hnot⟩ | ⟨cmd, payload, -, hread⟩
  · exact .inr (.inr ⟨by simp only [decode, hread], hnot⟩)
  · cases hvia : via.fits p with
    | true => exact .inl ⟨sentRow p.vocab cmd payload via, by simp only [decode, hread, hvia, if_true]⟩
    | false =>
      cases via with
      | send => cases hvia
      | exchange timeout =>
        obtain ⟨hcorr, hwide⟩ := (timeoutFits_eq_false_iff p timeout).mp hvia
        exact .inr (.inl ⟨by simp [decode, hread, hvia], hcorr, timeout, rfl, hwide⟩)

/-- A decoded code has a next state. -/
theorem exists_step_of_run {s u : State} {code : Code} {i : Instr} (h : fetch s = some (.run code u))
    (hread : decode u.params code = .ok i) : ∃ t, step s = .next t := by
  obtain ⟨t, ht, -⟩ := exec_has_effect i u
  exact ⟨t, by rw [step_of_run h hread, ht]⟩

/-- RECV is never refused: it comes to an answer or to a frame that stands there whole. -/
theorem exists_step_of_recv {s : State} {rest : List Input} (h : s.inputs = .recv :: rest) :
    ∃ t, step s = .next t := by
  rcases fetchReceived_cases (s.setInputs rest) with ⟨-, hr⟩ | ⟨-, -, hr⟩ | ⟨-, -, -, hr⟩ | ⟨-, -, hjudged, hr⟩
  · exact ⟨_, step_of_recv_done h hr⟩
  · exact ⟨_, step_of_recv_done h hr⟩
  · exact ⟨_, step_of_recv_done h hr⟩
  · obtain ⟨f, -, hread, -⟩ :=
      exists_frame_of_judged rfl hjudged (decodeBuffer_resync_ne_desynchronized _ _)
    exact exists_step_of_run ((fetch_recv h).trans (congrArg some hr)) (by rw [decode, hread])

/-! ## The statements -/

/-- Settles O5: one `fetch` lemma for each input; RECV with a frame in front is the case where nothing is dropped. -/
theorem stepRunsTheDecodedInstruction : Obligations.StepRunsTheDecodedInstruction := by
  intro s rest i
  have hrecv (hinputs : s.inputs = .recv :: rest) (hidle : s.busy = false)
      (hread : decode s.params (.received (resync s.acc s.strict)) = .ok i) :
      step s = exec i { s with acc := resync s.acc s.strict, inputs := rest } := by
    obtain ⟨f, hframe⟩ : ∃ f, readFrame (resync s.acc s.strict) = .ok f := by
      cases hframe : readFrame (resync s.acc s.strict) with
      | ok f => exact ⟨f, rfl⟩
      | error e => simp [decode, hframe] at hread
    have hfetched := fetchReceived_of_readFrame (s := s.setInputs rest) hidle hframe
    exact step_of_run ((fetch_recv hinputs).trans (congrArg some hfetched)) hread
  refine ⟨fun op args hinputs hread => step_of_run (fetch_host hinputs) hread,
    fun bytes via hinputs hread => step_of_run (fetch_request hinputs) hread, fun hinputs hidle hread => ?_, hrecv,
    step_of_tick, fun hinputs => step_of_run (fetch_reset hinputs) rfl⟩
  cases hframe : readFrame s.acc with
  | ok f =>
    have hkept := resync_of_readFrame s.strict hframe
    rw [hrecv hinputs hidle (by rw [hkept]; exact hread), hkept]
  | error e => simp [decode, hframe] at hread

/-- Settles O6: each pseudo-operation is XCHG's code with its operands, and AWAIT one of two codes. -/
theorem pseudoOperationsExpand : Obligations.PseudoOperationsExpand := by
  intro s rest timeout hfits
  have hxchg {c : Pseudo} {cmd : Byte} {payload : Bytes} (hinputs : s.inputs = .command c timeout :: rest)
      (hcode : expandPseudo s.params.vocab timeout c =
        .port 0x8 { HostArgs.zero with cmd := cmd, payload := payload, timeout := timeout }) :
      step s = exec (.xchg cmd payload timeout) { s with inputs := rest } :=
    step_of_run (fetch_command hinputs) (by
      rw [hcode]
      exact decode_port_xchg_of_fits s.params _ ((timeoutFits_iff s.params timeout).mpr hfits))
  refine ⟨fun h => hxchg h rfl, fun id h => hxchg h rfl, fun h => hxchg h rfl, fun h => hxchg h rfl,
    fun h => hxchg h rfl, fun h hbusy => step_of_run (fetch_await_of_busy h hbusy) rfl,
    fun h hidle => step_of_run (fetch_await_of_idle h hidle) rfl⟩

/-- Settles O7: an environment step is done without a code. -/
theorem environmentStepsActOnTheTransportOnly : Obligations.EnvironmentStepsActOnTheTransportOnly := by
  intro s rest
  exact ⟨fun bytes h => step_of_done (fetch_arrive h), fun h => step_of_done (fetch_closeLink h),
    fun h => step_of_done (fetch_openLink h), step_of_no_input⟩

/-- Settles O8: `exec` always answers, so a step is refused only where the decoder rejects the next input. -/
theorem nothingTrapsAndOnlyInexpressibleInputsAreRefused :
    Obligations.NothingTrapsAndOnlyInexpressibleInputsAreRefused := by
  refine ⟨fun i s => (exec_has_effect i s).imp fun t ht => ht.1, fun s => ?_⟩
  cases hinputs : s.inputs with
  | nil => exact .inl ⟨s, step_of_no_input hinputs⟩
  | cons input rest =>
    cases input with
    | host op args =>
      rcases decode_port_cases s.params op args with ⟨i, hread⟩ | ⟨hwhy, rfl, hcorr, hwide⟩
      · exact .inl (exists_step_of_run (fetch_host hinputs) hread)
      · exact .inr (.inl ⟨step_of_rejected (fetch_host hinputs) hwhy, hcorr, _, rest, rfl,
          .inl ⟨args, rfl, hwide⟩⟩)
    | request bytes via =>
      rcases decode_sent_cases s.params bytes via with ⟨i, hread⟩ | ⟨hwhy, hcorr, timeout, rfl, hwide⟩ | ⟨hwhy, hnot⟩
      · exact .inl (exists_step_of_run (fetch_request hinputs) hread)
      · exact .inr (.inl ⟨step_of_rejected (fetch_request hinputs) hwhy, hcorr, _, rest, rfl,
          .inr (.inl ⟨bytes, timeout, rfl, hwide⟩)⟩)
      · exact .inr (.inr ⟨step_of_rejected (fetch_request hinputs) hwhy, bytes, via, rest, rfl, hnot⟩)
    | command c timeout =>
      have hfetch := fetch_command hinputs
      obtain ⟨cmd, payload, hcode⟩ := expandPseudo_eq s.params.vocab timeout c
      rw [hcode] at hfetch
      rcases decode_port_cases s.params 0x8 { HostArgs.zero with cmd := cmd, payload := payload, timeout := timeout }
        with ⟨i, hread⟩ | ⟨hwhy, -, hcorr, hwide⟩
      · exact .inl (exists_step_of_run hfetch hread)
      · exact .inr (.inl ⟨step_of_rejected hfetch hwhy, hcorr, _, rest, rfl, .inr (.inr ⟨c, timeout, rfl, hwide⟩)⟩)
    | await =>
      cases hbusy : s.busy with
      | true => exact .inl (exists_step_of_run (fetch_await_of_busy hinputs hbusy) rfl)
      | false => exact .inl (exists_step_of_run (fetch_await_of_idle hinputs hbusy) rfl)
    | recv => exact .inl (exists_step_of_recv hinputs)
    | tick => exact .inl (exists_step_of_run (fetch_tick hinputs) rfl)
    | reset => exact .inl (exists_step_of_run (fetch_reset hinputs) rfl)
    | arrive bytes => exact .inl ⟨_, step_of_done (fetch_arrive hinputs)⟩
    | closeLink => exact .inl ⟨_, step_of_done (fetch_closeLink hinputs)⟩
    | openLink => exact .inl ⟨_, step_of_done (fetch_openLink hinputs)⟩

/-- Settles O20: resynchronising drops exactly the garbage. -/
theorem recvDropsGarbageAndDeliversTheFrame : Obligations.RecvDropsGarbageAndDeliversTheFrame := by
  intro s rest garbage cmd payload hinputs hidle hfits hgarbage hacc
  refine step_recv_of_encodeFrame cmd payload [] hinputs hidle hfits ?_
  rw [hacc]
  simpa using resync_garbage_encodeFrame cmd payload [] s.strict hgarbage

/-- Settles O21: each of the first two RECVs takes one frame from the front, and nothing is left for the third. -/
theorem twoFramesAreDeliveredInOrder : Obligations.TwoFramesAreDeliveredInOrder := by
  intro s rest c1 c2 p1 p2 hinputs hidle hfits1 hfits2 hacc
  have hfirst := step_recv_of_encodeFrame c1 p1 (encodeFrame c2 p2) hinputs hidle hfits1
    (by rw [hacc]; exact resync_encodeFrame c1 p1 _ s.strict)
  refine ⟨_, _, _, _, _, hfirst, rfl, rfl, rfl, rfl, rfl, step_recv_of_encodeFrame c2 p2 [] rfl hidle hfits2
    ?_, rfl, rfl, rfl, rfl, rfl, step_of_recv_done rfl rfl, rfl, rfl⟩
  rw [← resync_encodeFrame c2 p2 [] s.strict, List.append_nil]
  rfl

/-- Settles O22: RECV ends before it drops anything, in its first two cases. -/
theorem recvAnswersIncompleteOrBusyWithoutDropping : Obligations.RecvAnswersIncompleteOrBusyWithoutDropping := by
  intro s rest hinputs
  refine ⟨fun hv => step_of_recv_done hinputs (if_pos hv), fun hv hbusy => step_of_recv_done hinputs ?_⟩
  exact (if_neg hv).trans (if_pos hbusy)

/-- Settles O55: the third case of RECV, or the first where nothing was dropped. -/
theorem recvDropsNoiseAndAnswersIncomplete : Obligations.RecvDropsNoiseAndAnswersIncomplete := by
  intro s rest hinputs hidle hv
  refine step_of_recv_done hinputs ?_
  rcases fetchReceived_cases (s.setInputs rest) with ⟨hfirst, hr⟩ | ⟨-, hbusy, -⟩ | ⟨-, -, -, hr⟩ | ⟨-, -, hjudged, -⟩
  · have hkept : resync s.acc s.strict = s.acc :=
      resyncRounds_of_settled s.strict _ s.acc fun k hk => Verdict.noConfusion (hk.symm.trans hfirst)
    rw [hr, hkept]
    rfl
  · exact absurd (hidle.symm.trans hbusy) Bool.false_ne_true
  · exact hr
  · exact absurd hv hjudged

/-- Settles O23: every received row runs `receiveOp`, whose verdict is written out on the wire's bytes. -/
theorem receivedFramesAreJudgedAndRemoved : Obligations.ReceivedFramesAreJudgedAndRemoved := by
  intro s addr cmd ck payload later hidle hfits len verdict
  have hlen : len.toNat = payload.length := lengthByte_toNat payload hfits
  have hreceive (c : Byte) (hacc : s.acc = [0x55, addr, len, c] ++ payload ++ [ck] ++ later) :
      receiveOp { addr := addr, cmd := c, payload := payload, ck := ck } s =
        { s with acc := later, resp := .verdict (verdict c) } := by
    rw [receiveOp_of_front addr c ck payload later hidle hacc, judge_eq s.strict addr len c ck payload hlen.symm, hlen]
  refine ⟨fun hacc => ?_, fun hacc => congrArg Host.Outcome.next (hreceive 0x2E hacc)⟩
  have hrow := congrArg (Host.Outcome.next (φ := Fault) (ρ := Refusal)) (hreceive cmd hacc)
  exact ⟨hrow, hrow, hrow, hrow⟩

/-- Settles O24: each row runs SEND with its own command byte and payload, and the short frames are written out. -/
theorem requestsSentAppendTheirFrame : Obligations.RequestsSentAppendTheirFrame := by
  intro s cmd payload id hidle hopen sent
  have hsend (c : Byte) {p : Bytes} (hfits : p.length ≤ 255) :
      Host.Outcome.next (sendOp c p s) = sent (encodeFrame c p) :=
    congrArg Host.Outcome.next (sendOp_of_open c hidle hopen hfits)
  have hempty (c : Byte) : Host.Outcome.next (sendOp c [] s) = sent [0x55, 0x11, 0x00, c, 0x11 + c] := by
    rw [hsend c (by simp), encodeFrame_nil]
  refine ⟨fun hfits => ⟨hsend cmd hfits, hsend cmd hfits⟩, hempty Config.CC_KNOCK, hempty cmd, hempty cmd,
    hempty cmd, ?_⟩
  rw [← encodeFrame_pair, ← learnPayload_eq_extract]
  exact hsend cmd (by simp [learnPayload])

/-- Settles O25: a row exchanged runs `xchgOp` with its command byte and payload, as XCHG does. -/
theorem requestsExchangedRunXchg : Obligations.RequestsExchangedRunXchg := fun _ _ _ _ _ =>
  ⟨rfl, rfl, rfl, rfl, rfl, rfl, rfl⟩

/-- Settles O33: the seven codes are one operation, which only answers. -/
theorem reservedCodesReturnBadOp : Obligations.ReservedCodesReturnBadOp := by
  intro s
  simp only [List.forall_mem_cons, List.not_mem_nil, false_imp_iff, implies_true, and_true]
  exact ⟨rfl, rfl, rfl, rfl, rfl, rfl, rfl⟩

/-- Settles O34: without a correlator XCHG and XRES come to a reserved code, and the block is never busy. -/
theorem withoutACorrelatorItsOperationsAreReserved : Obligations.WithoutACorrelatorItsOperationsAreReserved := by
  intro s hcorr
  have hxchg (cmd : Byte) (payload : Bytes) (timeout : Nat) : xchgOp cmd payload timeout s = badOp s := if_pos hcorr
  refine ⟨fun cmd payload timeout => ?_, ?_, exec_tick_of_idle (busy_of_no_correlator hcorr)⟩
  · have hrow := congrArg (Host.Outcome.next (φ := Fault) (ρ := Refusal)) (hxchg cmd payload timeout)
    exact ⟨hrow, hrow⟩
  · have hxres : exec .xres s = execXres s := rfl
    rw [hxres, execXres_eq, hcorr]
    rfl

end Sys2Proof.Machine
end

section
/-! PROOFS. What every step keeps (10_state.md, 20_memory.md R51 to R66): what an instruction can change, said once, and
the good state that every step and every run preserves; the settled statements O46 to O48, O50 and O52 to O54. -/

namespace Sys2Proof.Machine

/-! ## What an instruction can change -/

/-- A tick counts and moves bytes, or it is an attempt that ends the exchange with a result that is not NONE. -/
inductive TickChange (s : State) : State → Prop where
  | counts (removed acc tq : Bytes) (elapsed pollcnt : Nat) (fifo : s.acc ++ s.tq = removed ++ (acc ++ tq)) :
      TickChange s { s with acc := acc, tq := tq, xElapsed := elapsed, xPollcnt := pollcnt }
  | ends (removed acc tq : Bytes) (elapsed : Nat) (res : XRes) (fifo : s.acc ++ s.tq = removed ++ (acc ++ tq))
      (due : s.xPollcnt = 0) (written : res.kind ≠ .none) :
      TickChange s { s with acc := acc, tq := tq, xElapsed := elapsed, xRes := res, xState := .idle }

/-- What an instruction leaves, with the facts that hold of the change. -/
inductive OpChange (s : State) : Instr → State → Prop where
  /-- Bytes leave the front of the accumulator, or come into it from the front of `TQ`, and the host is answered. -/
  | moves {i : Instr} (removed acc tq : Bytes) (resp : Response) (fifo : s.acc ++ s.tq = removed ++ (acc ++ tq))
      (room : ∀ cap, s.params.accCap = some cap → s.acc.length ≤ cap → acc.length ≤ cap) :
      OpChange s i { s with acc := acc, tq := tq, resp := resp }
  /-- One whole frame is written. -/
  | sends {i : Instr} (cmd : Byte) (payload : Bytes) (idle : s.busy = false) (opened : s.tOpen = true)
      (fits : payload.length ≤ 255) :
      OpChange s i { s with txlog := s.txlog ++ encodeFrame cmd payload, resp := .status .ok }
  | writesCfg (value : Byte) : OpChange s (.cfgwr value) { s with cfg := cfgOf value, resp := .status .ok }
  /-- An exchange is accepted; its timeout fits the port if the instruction is one the encodings carry. -/
  | exchanges {i : Instr} (cmd : Byte) (payload : Bytes) (timeout : Nat) (corr : s.params.hasCorr = true)
      (idle : s.busy = false) (opened : s.tOpen = true) (fits : payload.length ≤ 255)
      (timer : i.wf s.params = true → timeoutFits s.params timeout = true)
      (accepted : xchgOp cmd payload timeout s = (startExchange cmd payload timeout s).respond (.status .ok)) :
      OpChange s i ((startExchange cmd payload timeout s).respond (.status .ok))
  | ticks {u : State} (ticked : tickOp s = u) (change : TickChange s u) : OpChange s .tick (u.respond .nothing)
  | resets : OpChange s .reset ((resetOp s).respond .nothing)

/-- Pulling, resynchronising and removing a frame take bytes from the front only. -/
theorem pollOp_fifo (s : State) (n : Nat) :
    ∃ removed, s.acc ++ s.tq = removed ++ ((pollOp s).acc.drop n ++ (pollOp s).tq) := by
  obtain ⟨dropped, hdropped⟩ := resync_suffix (pullOp s (s.pullCount s.tq.length)).acc s.strict
  have hacc : (pullOp s (s.pullCount s.tq.length)).acc = dropped ++ (pollOp s).acc := hdropped
  refine ⟨dropped ++ (pollOp s).acc.take n, ?_⟩
  calc s.acc ++ s.tq = (pullOp s (s.pullCount s.tq.length)).acc ++ (pollOp s).tq := (pullOp_conserves s _).symm
    _ = dropped ++ ((pollOp s).acc.take n ++ (pollOp s).acc.drop n) ++ (pollOp s).tq := by
      rw [hacc, List.take_append_drop]
    _ = _ := by simp only [List.append_assoc]

theorem attemptOp_change {s : State} (hdue : s.xPollcnt = 0) : TickChange s (attemptOp s) := by
  rcases attemptOp_cases s with ⟨-, h⟩ | ⟨-, h⟩ <;> rw [h]
  · exact .ends [] s.acc s.tq _ (XRes.bare .transport) rfl hdue nofun
  · obtain ⟨kept, hkept⟩ := pollOp_fifo s 0
    cases decodeBuffer (pollOp s).acc s.strict with
    | frame f =>
      obtain ⟨removed, hfifo⟩ := pollOp_fifo s f.consumed
      exact .ends removed _ _ _ (deliveredRes f) hfifo hdue nofun
    | checksumMismatch span e g =>
      obtain ⟨removed, hfifo⟩ := pollOp_fifo s span
      exact .ends removed _ _ _ (rejectedRes (pollOp s).acc e g) hfifo hdue nofun
    | desynchronized k => exact .counts kept _ _ _ _ hkept
    | incomplete =>
      rw [concludeOp]
      split
      · exact .ends kept _ _ _ (XRes.bare .timeout) hkept hdue nofun
      · exact .counts kept _ _ _ _ hkept

theorem tickOp_change (s : State) : TickChange s (tickOp s) := by
  rcases tickOp_cases s with ⟨-, h⟩ | ⟨-, -, h⟩ | ⟨-, hdue, h⟩ <;> rw [h]
  · exact .counts [] s.acc s.tq s.xElapsed s.xPollcnt rfl
  · exact .counts [] s.acc s.tq _ _ rfl
  · exact attemptOp_change hdue

section
variable {s : State} {i : Instr}

theorem OpChange.answers (v : Response) : OpChange s i (s.respond v) :=
  .moves [] s.acc s.tq v rfl fun _ _ h => h

/-- Bytes removed from the front of the accumulator. -/
theorem OpChange.drops (n : Nat) (v : Response) : OpChange s i ((s.setAcc (s.acc.drop n)).respond v) :=
  .moves (s.acc.take n) (s.acc.drop n) s.tq v (by rw [← List.append_assoc, List.take_append_drop])
    fun cap _ h => by rw [List.length_drop]; omega

theorem receiveOp_change (f : WireFrame) : OpChange s i (receiveOp f s) := by
  rcases receiveOp_cases f s with ⟨st, h, -⟩ | ⟨-, -, h⟩ <;> rw [h]
  · exact .answers _
  · exact .drops _ _

theorem dropHostOp_change (n : Nat) : OpChange s i (dropHostOp n s) := by
  rcases dropHostOp_cases n s with ⟨st, h, -⟩ | ⟨-, -, h⟩ <;> rw [h]
  · exact .answers _
  · exact .drops _ _

theorem flushOp_change : OpChange s i (flushOp s) := by
  rcases flushOp_cases s with ⟨-, h⟩ | ⟨-, h⟩ <;> rw [h]
  · exact .answers _
  · exact .moves s.acc [] s.tq _ rfl fun _ _ _ => Nat.zero_le _

theorem fillOp_change (max : Nat) : OpChange s i (fillOp max s) := by
  rcases fillOp_cases max s with ⟨st, h, -⟩ | ⟨-, -, h⟩ <;> rw [h]
  · exact .answers _
  · exact .moves [] _ _ _ (pullOp_conserves s _).symm fun cap hcap hheld => pullOp_keeps_capacity s max cap hcap hheld

theorem cfgwrOp_change (value : Byte) : OpChange s (.cfgwr value) (cfgwrOp value s) := by
  rcases cfgwrOp_cases value s with ⟨-, h⟩ | ⟨-, h⟩ <;> rw [h]
  · exact .answers _
  · exact .writesCfg value

theorem sendOp_change (cmd : Byte) (payload : Bytes) : OpChange s i (sendOp cmd payload s) := by
  rcases sendOp_cases cmd payload s with ⟨st, h, -⟩ | ⟨hidle, hfits, hopen, h⟩ <;> rw [h]
  · exact .answers _
  · exact .sends cmd payload hidle hopen hfits

theorem transmitOp_change (cmd : Byte) (payload : Bytes) (via : Via)
    (hvia : i.wf s.params = true → via.fits s.params = true) : OpChange s i (transmitOp cmd payload via s) := by
  cases via with
  | send => exact sendOp_change cmd payload
  | exchange timeout =>
    rw [transmitOp]
    rcases xchgOp_cases cmd payload timeout s with ⟨st, h, -⟩ | ⟨hcorr, hidle, hfits, hopen, h⟩ <;> rw [h]
    · exact .answers _
    · exact .exchanges cmd payload timeout hcorr hidle hopen hfits hvia h

end

/-- Every instruction has a next state, and one of the changes made it. -/
theorem exec_has_change (i : Instr) (s : State) : ∃ t, exec i s = .next t ∧ OpChange s i t := by
  cases i with
  | frame | ok | blockRecord | arrowRecord | info => exact ⟨_, rfl, receiveOp_change _⟩
  | frameTx cmd payload via | algorithmSelect cmd payload via =>
    exact ⟨_, rfl, transmitOp_change cmd payload via fun h => by simp_all [Instr.wf]⟩
  | knock via => exact ⟨_, rfl, transmitOp_change Config.CC_KNOCK [] via id⟩
  | blocksRequest cmd via | arrowsRequest cmd via | forget cmd via =>
    exact ⟨_, rfl, transmitOp_change cmd [] via fun h => by simp_all [Instr.wf]⟩
  | learn cmd id via =>
    exact ⟨_, rfl, transmitOp_change cmd (learnPayload id) via fun h => by simp_all [Instr.wf]⟩
  | send cmd payload => exact ⟨_, rfl, sendOp_change cmd payload⟩
  | xchg cmd payload timeout => exact ⟨_, rfl, transmitOp_change cmd payload (.exchange timeout) id⟩
  | stat | decode => exact ⟨_, rfl, .answers _⟩
  | xres => exact ⟨_, execXres_eq s, .answers _⟩
  | reserved7 | reservedA | reservedB | reservedC | reservedD | reservedE | reservedF =>
    exact ⟨_, rfl, .answers (.status .badOp)⟩
  | fill max => exact ⟨_, rfl, fillOp_change max⟩
  | drop n => exact ⟨_, rfl, dropHostOp_change n⟩
  | flush => exact ⟨_, rfl, flushOp_change⟩
  | cfgwr value => exact ⟨_, rfl, cfgwrOp_change value⟩
  | tick => exact ⟨_, rfl, .ticks rfl (tickOp_change s)⟩
  | reset => exact ⟨_, rfl, .resets⟩

theorem opChange_of_exec {i : Instr} {s t : State} (h : exec i s = .next t) : OpChange s i t := by
  obtain ⟨u, hu, hchange⟩ := exec_has_change i s
  rw [hu] at h
  cases h
  exact hchange

/-! ## The good state, field by field -/

/-- A good state, each part of it by name. -/
structure State.Good (s : State) : Prop where
  legal : s.params.legal = true
  accFits : ∀ cap, s.params.accCap = some cap → s.acc.length ≤ cap
  reserved : s.cfg &&& 0xFE#8 = 0
  elapsed : s.xElapsed < 2 ^ s.params.timerW
  timeout : s.xTimeout < 2 ^ s.params.timerW
  pollcnt : s.xPollcnt < s.params.pollInterval
  result : s.xRes.wf = true
  noResult : s.xState = .idle ∨ s.xRes.kind = .none
  atRest : s.params.hasCorr = true ∨ s.correlatorAtRest = true

theorem State.accFits_iff (s : State) :
    s.accFits = true ↔ ∀ cap, s.params.accCap = some cap → s.acc.length ≤ cap := by
  unfold State.accFits
  cases s.params.accCap <;> simp

theorem State.wf_iff_good (s : State) : s.wf = true ↔ s.Good := by
  simp only [State.wf, State.timersFit, Bool.and_eq_true, Bool.or_eq_true, decide_eq_true_eq, beq_iff_eq,
    State.accFits_iff]
  constructor
  · rintro ⟨⟨⟨⟨⟨⟨legal, accFits⟩, reserved⟩, ⟨elapsed, timeout⟩, pollcnt⟩, result⟩, noResult⟩, atRest⟩
    exact ⟨legal, accFits, reserved, elapsed, timeout, pollcnt, result, noResult, atRest⟩
  · rintro ⟨legal, accFits, reserved, elapsed, timeout, pollcnt, result, noResult, atRest⟩
    exact ⟨⟨⟨⟨⟨⟨legal, accFits⟩, reserved⟩, ⟨elapsed, timeout⟩, pollcnt⟩, result⟩, noResult⟩, atRest⟩

/-- Legal parameters have a poll interval (00_scope.md R9). -/
theorem pollInterval_pos_of_legal {p : Params} (h : p.legal = true) : 0 < p.pollInterval := by
  simp only [Params.legal, Bool.and_eq_true, decide_eq_true_eq] at h
  exact h.1.2

/-- The result of a delivered frame is well formed. -/
theorem deliveredRes_wf {buf : Bytes} {strict : Bool} {f : FrameVerdict} (h : decodeBuffer buf strict = .frame f) :
    (deliveredRes f).wf = true := by
  obtain ⟨w, -, -, hfits, -, hjudge⟩ := exists_frame_of_judged h nofun nofun
  rcases judge_cases strict w with ⟨hj, -⟩ | ⟨hj, -⟩ <;> rw [hj] at hjudge <;> cases hjudge
  simp [XRes.wf, deliveredRes, lengthByte_toNat w.payload hfits, WireFrame.ckOk]

/-- The fields of a rejected result are those of the frame that stands in front of the accumulator. -/
theorem rejectedRes_wireBytes (addr cmd ck expected got : Byte) (payload later : Bytes) (h : payload.length ≤ 255) :
    rejectedRes (wireBytes addr cmd payload ck ++ later) expected got =
      { kind := .cksum, addr := addr, plen := lengthByte payload, cmd := cmd, payload := payload, ck := got,
        ckOk := false, expected := expected } := by
  have hpayload : (payload ++ ([ck] ++ later)).take (lengthByte payload).toNat = payload := by
    rw [lengthByte_toNat payload h, List.take_left]
  rw [rejectedRes, wireBytes, List.append_assoc, List.append_assoc]
  exact congrArg (XRes.mk .cksum addr (lengthByte payload) cmd · got false expected) hpayload

/-- The result of a rejected frame is well formed. -/
theorem rejectedRes_wf {buf : Bytes} {strict : Bool} {span : Nat} {e g : Byte}
    (h : decodeBuffer buf strict = .checksumMismatch span e g) : (rejectedRes buf e g).wf = true := by
  obtain ⟨w, later, -, hfits, rfl, hjudge⟩ := exists_frame_of_judged h nofun nofun
  rcases judge_cases strict w with ⟨hj, hbad, -⟩ | ⟨hj, -⟩ <;> rw [hj] at hjudge <;> cases hjudge
  rw [rejectedRes_wireBytes _ _ _ _ _ _ _ hfits]
  simpa [XRes.wf, lengthByte_toNat w.payload hfits, WireFrame.ckOk] using hbad

/-! ## Every change keeps the state good -/

section
variable {s : State}

theorem endExchange_good (hs : s.Good) (hcorr : s.params.hasCorr = true) {res : XRes} (hres : res.wf = true) :
    (endExchange res s).Good :=
  { hs with result := hres, noResult := .inl rfl, atRest := .inl hcorr }

theorem countTick_good (hs : s.Good) (hcorr : s.params.hasCorr = true) : (countTick s).Good :=
  { hs with elapsed := sat_lt s _, atRest := .inl hcorr }

/-- Leaving an end of what is held keeps the accumulator within its capacity. -/
theorem setAcc_good (hs : s.Good) {acc dropped : Bytes} (hacc : s.acc = dropped ++ acc) : (s.setAcc acc).Good :=
  have hfits (cap : Nat) (hcap : s.params.accCap = some cap) : acc.length ≤ cap := by
    have hheld := hs.accFits cap hcap
    rw [hacc, List.length_append] at hheld
    exact (Nat.le_add_left _ _).trans hheld
  { hs with accFits := hfits }

theorem dropOp_good (hs : s.Good) (n : Nat) : (dropOp s n).Good :=
  setAcc_good hs (List.take_append_drop n s.acc).symm

theorem pullOp_good (hs : s.Good) (max : Nat) : (pullOp s (s.pullCount max)).Good :=
  { hs with accFits := fun cap hcap => pullOp_keeps_capacity s max cap hcap (hs.accFits cap hcap) }

theorem pollOp_good (hs : s.Good) : (pollOp s).Good := by
  obtain ⟨dropped, hdropped⟩ := resync_suffix (pullOp s (s.pullCount s.tq.length)).acc s.strict
  exact setAcc_good (pullOp_good hs s.tq.length) hdropped

theorem concludeOp_params (v : Verdict) : (concludeOp v s).params = s.params := by
  cases v with
  | incomplete =>
    rw [concludeOp]
    split <;> rfl
  | _ => rfl

/-- Step A4 keeps the state good, on the verdict of what is held. -/
theorem concludeOp_good (hs : s.Good) (hcorr : s.params.hasCorr = true) {v : Verdict} {strict : Bool}
    (hv : decodeBuffer s.acc strict = v) : (concludeOp v s).Good := by
  cases v with
  | frame f => exact endExchange_good (dropOp_good hs _) hcorr (deliveredRes_wf hv)
  | checksumMismatch span e g => exact endExchange_good (dropOp_good hs _) hcorr (rejectedRes_wf hv)
  | desynchronized k => exact hs
  | incomplete =>
    rw [concludeOp]
    split
    · exact endExchange_good hs hcorr rfl
    · have hpos := pollInterval_pos_of_legal hs.legal
      exact { hs with pollcnt := Nat.sub_one_lt hpos.ne', atRest := .inl hcorr }

theorem tickOp_good (hs : s.Good) : (tickOp s).Good := by
  rcases tickOp_cases s with ⟨-, h⟩ | ⟨hbusy, -, h⟩ | ⟨hbusy, -, h⟩ <;> rw [h]
  · exact hs
  · exact { hs with
      elapsed := sat_lt s _, pollcnt := (Nat.sub_le _ _).trans_lt hs.pollcnt, atRest := .inl (hasCorr_of_busy hbusy) }
  · have hcorr := hasCorr_of_busy hbusy
    rcases attemptOp_cases s with ⟨-, h⟩ | ⟨-, h⟩ <;> rw [h]
    · exact countTick_good (endExchange_good hs hcorr rfl) hcorr
    · exact countTick_good (concludeOp_good (pollOp_good hs) hcorr rfl) (by rw [concludeOp_params]; exact hcorr)

theorem resetOp_good (hs : s.Good) : (resetOp s).Good where
  legal := hs.legal
  accFits _ _ := Nat.zero_le _
  reserved := (by decide : (0x01 : Byte) &&& 0xFE#8 = 0)
  elapsed := Nat.two_pow_pos _
  timeout := Nat.two_pow_pos _
  pollcnt := pollInterval_pos_of_legal hs.legal
  result := rfl
  noResult := .inl rfl
  atRest := .inr rfl

theorem respond_good (hs : s.Good) (v : Response) : (s.respond v).Good := { hs with }

/-- An accepted exchange whose timeout fits the timer is a good state. -/
theorem startExchange_good (hs : s.Good) (hcorr : s.params.hasCorr = true) (cmd : Byte) (payload : Bytes)
    {timeout : Nat} (htimeout : timeout < 2 ^ s.params.timerW) : (startExchange cmd payload timeout s).Good :=
  { hs with
    accFits := fun _ _ => Nat.zero_le _, elapsed := Nat.two_pow_pos _, timeout := htimeout,
    pollcnt := pollInterval_pos_of_legal hs.legal, result := rfl, noResult := .inr rfl, atRest := .inl hcorr }

end

/-- An instruction the encodings carry keeps the state good. -/
theorem OpChange.good {s t : State} {i : Instr} (h : OpChange s i t) (hs : s.Good) (hi : i.wf s.params = true) :
    t.Good := by
  cases h with
  | moves removed acc tq resp fifo room =>
    exact { hs with accFits := fun cap hcap => room cap hcap (hs.accFits cap hcap) }
  | sends cmd payload => exact { hs with }
  | writesCfg value => exact { hs with reserved := by simp [cfgOf, BitVec.and_assoc] }
  | exchanges cmd payload timeout corr _ _ _ timer =>
    have htimeout : timeout < 2 ^ s.params.timerW := by
      simpa [timeoutFits_iff, corr] using timer hi
    exact respond_good (startExchange_good hs corr cmd payload htimeout) _
  | ticks ticked => exact respond_good (ticked ▸ tickOp_good hs) _
  | resets => exact respond_good (resetOp_good hs) _

/-! ## What a step can do -/

/-- A step that goes on ran a decoded instruction, if it came to a code. -/
theorem exists_exec_of_step {s t u : State} {code : Code} (hfetch : fetch s = some (.run code u))
    (h : step s = .next t) : ∃ i, i.wf u.params = true ∧ exec i u = .next t := by
  cases hread : decode u.params code with
  | error why =>
    rw [step_of_rejected hfetch hread] at h
    cases h
  | ok i => exact ⟨i, wf_of_decode hread, (step_of_run hfetch hread).symm.trans h⟩

/-- A step runs an instruction the encodings carry, in a state whose accumulator has lost a front (RECV) and whose
queue its input, or it changes no more than the accumulator's front, the transport's receiving side and the answer. -/
theorem step_next_cases {s t : State} (h : step s = .next t) :
    (∃ i dropped acc inputs, s.acc = dropped ++ acc ∧ i.wf s.params = true ∧
      exec i { s with acc := acc, inputs := inputs } = .next t) ∨
    (∃ dropped acc tq tOpen resp inputs, s.acc = dropped ++ acc ∧
      t = { s with acc := acc, tq := tq, tOpen := tOpen, resp := resp, inputs := inputs }) := by
  have hrun {code : Code} {dropped acc : Bytes} {inputs : List Input} (hacc : s.acc = dropped ++ acc)
      (hfetch : fetch s = some (.run code { s with acc := acc, inputs := inputs })) :
      ∃ i dropped acc inputs, s.acc = dropped ++ acc ∧ i.wf s.params = true ∧
        exec i { s with acc := acc, inputs := inputs } = .next t := by
    obtain ⟨i, hi, hexec⟩ := exists_exec_of_step hfetch h
    exact ⟨i, dropped, acc, inputs, hacc, hi, hexec⟩
  have hdone {u : State} (hfetch : fetch s = some (.done u)) : t = u :=
    Host.Outcome.next.inj (h.symm.trans (step_of_done hfetch))
  cases hinputs : s.inputs with
  | nil => exact .inr ⟨[], _, _, _, _, _, rfl, Host.Outcome.next.inj (h.symm.trans (step_of_no_input hinputs))⟩
  | cons input rest =>
    cases input with
    | host op args => exact .inl (hrun (dropped := []) rfl (fetch_host hinputs))
    | request bytes via => exact .inl (hrun (dropped := []) rfl (fetch_request hinputs))
    | command c timeout => exact .inl (hrun (dropped := []) rfl (fetch_command hinputs))
    | tick => exact .inl (hrun (dropped := []) rfl (fetch_tick hinputs))
    | reset => exact .inl (hrun (dropped := []) rfl (fetch_reset hinputs))
    | await =>
      cases hbusy : s.busy with
      | true => exact .inl (hrun (dropped := []) rfl (fetch_await_of_busy hinputs hbusy))
      | false => exact .inl (hrun (dropped := []) rfl (fetch_await_of_idle hinputs hbusy))
    | recv =>
      have hfetch := fetch_recv hinputs
      obtain ⟨dropped, hdropped⟩ := resync_suffix s.acc s.strict
      rcases fetchReceived_cases (s.setInputs rest) with ⟨-, hr⟩ | ⟨-, -, hr⟩ | ⟨-, -, -, hr⟩ | ⟨-, -, -, hr⟩ <;>
        rw [hr] at hfetch
      · exact .inr ⟨[], _, _, _, _, _, rfl, hdone hfetch⟩
      · exact .inr ⟨[], _, _, _, _, _, rfl, hdone hfetch⟩
      · exact .inr ⟨dropped, _, _, _, _, _, hdropped, hdone hfetch⟩
      · exact .inl (hrun hdropped hfetch)
    | arrive bytes => exact .inr ⟨[], _, _, _, _, rest, rfl, hdone (fetch_arrive hinputs)⟩
    | closeLink => exact .inr ⟨[], _, _, _, _, rest, rfl, hdone (fetch_closeLink hinputs)⟩
    | openLink => exact .inr ⟨[], _, _, _, _, rest, rfl, hdone (fetch_openLink hinputs)⟩

/-! ## Runs -/

theorem run_succ_of_step {s u : State} (k : Nat) (h : step s = .next u) :
    Host.Core.run Sys2Proof.core (k + 1) s = Host.Core.run Sys2Proof.core k u := by
  have hstep : Sys2Proof.core.step s = .next u := h
  simp only [Host.Core.run, hstep]

/-- A run that goes on went on at its first step. -/
theorem exists_step_of_run_succ {s t : State} {k : Nat}
    (h : Host.Core.run Sys2Proof.core (k + 1) s = .next t) :
    ∃ u, step s = .next u ∧ Host.Core.run Sys2Proof.core k u = .next t := by
  cases hstep : step s with
  | next u => exact ⟨u, rfl, (run_succ_of_step k hstep).symm.trans h⟩
  | fault r => exact nomatch r
  | refused r =>
    have hcore : Sys2Proof.core.step s = .refused r := hstep
    simp only [Host.Core.run, hcore, reduceCtorEq] at h

/-! ## The statements -/

/-- Settles O46: the state in which a step runs its instruction is good, and so is what any change makes of it. -/
theorem everyStepKeepsTheStateGood : Obligations.EveryStepKeepsTheStateGood := by
  intro s t hwf hstep
  rw [State.wf_iff_good] at hwf ⊢
  rcases step_next_cases hstep with ⟨i, dropped, acc, inputs, hacc, hi, hexec⟩ |
    ⟨dropped, acc, tq, tOpen, resp, inputs, hacc, rfl⟩
  · have hgood := setAcc_good hwf hacc
    exact (opChange_of_exec hexec).good { hgood with } hi
  · have hgood := setAcc_good hwf hacc
    exact { hgood with }

/-- Settles O47: reset sets every part of the good state but the parameters, which are legal by hypothesis. -/
theorem theResetStateIsGood : Obligations.TheResetStateIsGood := by
  refine ⟨by decide, fun p tq txlog tOpen inputs hlegal => (State.wf_iff_good _).mpr ?_⟩
  exact
    { legal := hlegal, accFits := fun _ _ => Nat.zero_le _, reserved := (by decide : (0x01 : Byte) &&& 0xFE#8 = 0),
      elapsed := Nat.two_pow_pos _, timeout := Nat.two_pow_pos _, pollcnt := pollInterval_pos_of_legal hlegal,
      result := rfl, noResult := .inl rfl, atRest := .inr rfl }

/-- Every state the runs reach is good. -/
theorem wf_of_reachable {s : State} (h : Reachable s) : s.wf = true := by
  induction h with
  | start params tq txlog tOpen inputs legal => exact theResetStateIsGood.2 params tq txlog tOpen inputs legal
  | next s t _ stepped ih => exact everyStepKeepsTheStateGood s t ih stepped

/-- What a run reaches from a reachable state is reachable. -/
theorem reachable_of_run {s t : State} {k : Nat} (h : Reachable s) (hrun : Host.Core.run Sys2Proof.core k s = .next t) :
    Reachable t := by
  induction k generalizing s with
  | zero =>
    cases hrun
    exact h
  | succ k ih =>
    obtain ⟨u, hstep, hrest⟩ := exists_step_of_run_succ hrun
    exact ih (.next s u h hstep) hrest

/-- Settles O48: from a reachable state a run reaches only reachable states, which are good; there is no fault. -/
theorem everyRunFromResetIsSafe : Obligations.EveryRunFromResetIsSafe := fun _ hreached =>
  ⟨wf_of_reachable hreached, fun _ _ hrun => ⟨wf_of_reachable (reachable_of_run hreached hrun), nofun⟩⟩

/-- Settles O50, by cases on the change: only an accepted exchange enters BUSY, only the end of an exchange and reset
leave it. -/
theorem busyIsEnteredByExchangeAndLeftByTickOrReset : Obligations.BusyIsEnteredByExchangeAndLeftByTickOrReset := by
  intro i s t h
  have hstays {u : State} (hsame : u.busy = s.busy) {p q : Prop} :
      (s.busy = false → u.busy = true → p) ∧ (s.busy = true → u.busy = false → q) :=
    ⟨fun hidle hbusy => by simp_all, fun hbusy hidle => by simp_all⟩
  cases opChange_of_exec h with
  | moves removed acc tq resp => exact hstays rfl
  | sends cmd payload => exact hstays rfl
  | writesCfg value => exact hstays rfl
  | exchanges cmd payload timeout corr idle opened fits timer accepted =>
    have hxchg : exec (.xchg cmd payload timeout) s = .next (xchgOp cmd payload timeout s) := rfl
    exact ⟨fun _ _ => ⟨rfl, cmd, payload, timeout, by rw [h, hxchg, accepted]⟩,
      fun hbusy => absurd (idle.symm.trans hbusy) Bool.false_ne_true⟩
  | ticks ticked change =>
    cases change with
    | counts => exact hstays rfl
    | ends removed acc tq elapsed res fifo due written =>
      exact ⟨fun _ hbusy => by simp [State.busy] at hbusy, fun _ _ => .inl ⟨rfl, due, written⟩⟩
  | resets => exact ⟨fun _ hbusy => by simp [resetOp_eq, State.busy] at hbusy, fun _ _ => .inr rfl⟩

/-- Settles O52: no change but CFGWR's and reset's names `CFG`, and none names the other fields. -/
theorem onlyCfgwrAndResetWriteCfg : Obligations.OnlyCfgwrAndResetWriteCfg := by
  intro i s t h
  cases opChange_of_exec h with
  | moves | sends | exchanges => exact ⟨fun hcfg => absurd rfl hcfg, rfl, rfl, rfl⟩
  | writesCfg value => exact ⟨fun _ => .inl ⟨value, rfl⟩, rfl, rfl, rfl⟩
  | ticks ticked change => cases change <;> exact ⟨fun hcfg => absurd rfl hcfg, rfl, rfl, rfl⟩
  | resets => exact ⟨fun _ => .inr rfl, rfl, rfl, rfl⟩

/-- Settles O53, by cases on the change. -/
theorem bytesMoveFirstInFirstOut : Obligations.BytesMoveFirstInFirstOut := by
  intro i s t h
  cases opChange_of_exec h with
  | moves removed acc tq resp fifo => exact ⟨removed, fifo⟩
  | sends | writesCfg => exact ⟨[], rfl⟩
  | exchanges => exact ⟨s.acc, rfl⟩
  | ticks ticked change =>
    cases change with
    | counts removed _ _ _ _ fifo | ends removed _ _ _ _ fifo => exact ⟨removed, fifo⟩
  | resets => exact ⟨s.acc, rfl⟩

theorem TickChange.txlog {s u : State} (h : TickChange s u) : u.txlog = s.txlog := by
  cases h <;> rfl

/-- An instruction writes nothing, or one whole frame. -/
theorem OpChange.txlog_cases {s t : State} {i : Instr} (h : OpChange s i t) :
    t.txlog = s.txlog ∨
    (s.tOpen = true ∧ s.busy = false ∧ t.resp = .status .ok ∧
      ∃ cmd payload, payload.length ≤ 255 ∧ t.txlog = s.txlog ++ encodeFrame cmd payload) := by
  cases h with
  | moves | writesCfg | resets => exact .inl rfl
  | sends cmd payload idle opened fits => exact .inr ⟨opened, idle, rfl, cmd, payload, fits, rfl⟩
  | exchanges cmd payload timeout _ idle opened fits => exact .inr ⟨opened, idle, rfl, cmd, payload, fits, rfl⟩
  | ticks ticked change => exact .inl change.txlog

/-- Settles O54: a step's instruction writes nothing or one whole frame, and a tick writes nothing. -/
theorem theTransportIsWrittenByWholeFrames : Obligations.TheTransportIsWrittenByWholeFrames := by
  refine ⟨fun s t hstep => ?_, fun s t h => ?_⟩
  · rcases step_next_cases hstep with ⟨i, dropped, acc, inputs, -, -, hexec⟩ | ⟨_, _, _, _, _, _, -, rfl⟩
    · exact (opChange_of_exec hexec).txlog_cases
    · exact .inl rfl
  · cases h
    exact (tickOp_change s).txlog

end Sys2Proof.Machine
end

section
/-! PROOFS. Exchanges over many ticks (41_correlator_ops.md R158, R159, 70_reset_and_hazards.md R222, R228): the frame
that beats the deadline, the stale frame, and the unanswered exchange; the settled statements O40 to O43. -/

namespace Sys2Proof.Machine

/-! ## Runs over ticks -/

/-- A run of `k + 1` steps is a run of `k` steps and a last one. -/
theorem run_succ_of_run {s t : State} {k : Nat} (h : Host.Core.run Sys2Proof.core k s = .next t) :
    Host.Core.run Sys2Proof.core (k + 1) s = step t := by
  induction k generalizing s with
  | zero =>
    obtain rfl : s = t := Host.Outcome.next.inj h
    cases hstep : step s with
    | next u => exact run_succ_of_step 0 hstep
    | fault r => exact nomatch r
    | refused r =>
      have hcore : Sys2Proof.core.step s = .refused r := hstep
      simp only [Host.Core.run, hcore]
      rfl
  | succ k ih =>
    obtain ⟨u, hstep, hrest⟩ := exists_step_of_run_succ h
    rw [run_succ_of_step (k + 1) hstep, ih hrest]

/-! ## An attempt at which nothing arrives -/

section
variable {s : State}

/-- Where nothing is pending and what is held is Incomplete, the attempt's pull changes nothing. -/
theorem pollOp_of_nothing (htq : s.tq = []) (hacc : decodeBuffer s.acc s.strict = .incomplete) : pollOp s = s := by
  have hkept : resync s.acc s.strict = s.acc :=
    resyncRounds_of_settled s.strict _ s.acc fun k hk => Verdict.noConfusion (hk.symm.trans hacc)
  rw [pollOp_eq, htq, List.take_nil, List.append_nil, List.drop_nil, hkept, ← htq]

/-- An attempt at which nothing arrives, past the timeout: the exchange ends (41_correlator_ops.md R156 step A4). -/
theorem exec_tick_of_expired (hbusy : s.busy = true) (hopen : s.tOpen = true) (htq : s.tq = [])
    (hacc : decodeBuffer s.acc s.strict = .incomplete) (hpoll : s.xPollcnt = 0) (hlate : s.xTimeout < s.xElapsed) :
    exec .tick s = .next { s with
      xRes := XRes.bare .timeout, xState := .idle, xElapsed := s.sat (s.xElapsed + 1), resp := .nothing } := by
  have hpolled := pollOp_of_nothing htq hacc
  rw [exec_tick_of_verdict hbusy hpoll hopen (v := .incomplete) (by rw [hpolled, hacc]), hpolled, concludeOp,
    if_pos hlate]
  rfl

/-- A tick at which nothing arrives and the timeout is not past: the timers count, and nothing else changes. -/
theorem exec_tick_of_unanswered (hbusy : s.busy = true) (hopen : s.tOpen = true) (htq : s.tq = [])
    (hacc : decodeBuffer s.acc s.strict = .incomplete) (hearly : s.xPollcnt = 0 → s.xElapsed ≤ s.xTimeout) :
    exec .tick s = .next { s with
      xPollcnt := if s.xPollcnt = 0 then s.params.pollInterval - 1 else s.xPollcnt - 1,
      xElapsed := s.sat (s.xElapsed + 1), resp := .nothing } := by
  by_cases hpoll : s.xPollcnt = 0
  · have hpolled := pollOp_of_nothing htq hacc
    rw [exec_tick_of_verdict hbusy hpoll hopen (v := .incomplete) (by rw [hpolled, hacc]), hpolled, concludeOp,
      if_neg (by have := hearly hpoll; omega), if_pos hpoll]
    rfl
  · rw [exec_tick_of_waiting hbusy (Nat.pos_of_ne_zero hpoll), if_neg hpoll]
    rfl

end

/-! ## An exchange at whose first attempt a frame is there -/

theorem xchgOp_of_open {s : State} (cmd : Byte) {payload : Bytes} (timeout : Nat) (hcorr : s.params.hasCorr = true)
    (hidle : s.busy = false) (hfits : payload.length ≤ 255) (hopen : s.tOpen = true) :
    xchgOp cmd payload timeout s = (startExchange cmd payload timeout s).respond (.status .ok) := by
  rw [xchgOp, if_neg (by simp [hcorr]), if_neg (by simp [hidle]), if_neg (by simp [payloadTooLong]; omega),
    if_neg (by simp [hopen])]

/-- An accumulator that is empty has room for any frame, so an attempt pulls it whole. -/
theorem le_pullCount_pending {s : State} {m : Nat} (hlegal : s.params.legal = true) (hacc : s.acc = [])
    (hpending : m ≤ s.tq.length) (hframe : m ≤ 260) : m ≤ s.pullCount s.tq.length := by
  rw [pullCount_pending, hacc]
  cases hcap : s.params.accCap with
  | none => exact hpending
  | some cap =>
    have hroom := le_capacity_of_legal hlegal hcap
    simp only [limitToRoom, List.length_nil]
    omega

/-- The buffer of the attempt resynchronises to the frame, and a Frame verdict ends the exchange without a look at the
timers (41_correlator_ops.md R158). -/
theorem exec_tick_of_frame_present {s : State} {garbage later : Bytes} {cmd : Byte} {payload : Bytes}
    (hbusy : s.busy = true) (hpoll : s.xPollcnt = 0) (hopen : s.tOpen = true) (hfits : payload.length ≤ 255)
    (hgarbage : ∀ b ∈ garbage, b ≠ 0x55)
    (hbuf : s.acc ++ s.tq.take (s.pullCount s.tq.length) = garbage ++ encodeFrame cmd payload ++ later) :
    exec .tick s = .next { s with
      acc := later, tq := s.tq.drop (s.pullCount s.tq.length),
      xRes := { kind := .frame, addr := 0x11, plen := lengthByte payload, cmd := cmd, payload := payload,
                ck := frameChecksum 0x11 cmd payload, ckOk := true, expected := frameChecksum 0x11 cmd payload },
      xState := .idle, xElapsed := s.sat (s.xElapsed + 1), resp := .nothing } := by
  have hacc : (pollOp s).acc = encodeFrame cmd payload ++ later := by
    rw [pollOp_eq, hbuf, List.append_assoc]
    exact resync_garbage_encodeFrame cmd payload later s.strict hgarbage
  have hdrop : (pollOp s).acc.drop (5 + payload.length) = later := by
    rw [hacc, ← encodeFrame_length cmd payload, List.drop_left]
  have hverdict := decodeBuffer_encodeFrame cmd payload later s.strict hfits
  rw [← hacc] at hverdict
  rw [exec_tick_of_verdict hbusy hpoll hopen hverdict, concludeOp, dropOp, hdrop]
  rfl

/-! ## The unanswered exchange, tick by tick -/

@[simp] theorem sat_zero (s : State) : s.sat 0 = 0 := Nat.zero_min _

/-- Counting a tick from a saturated count. -/
theorem sat_sat_succ (s : State) (k : Nat) : s.sat (s.sat k + 1) = s.sat (k + 1) := by
  unfold State.sat
  omega

/-- The state an unanswered exchange is in: as it started, but for its timers, the answer and the queue. -/
def unanswered (s : State) (elapsed pollcnt : Nat) (resp : Response) (inputs : List Input) : State :=
  { s with xElapsed := elapsed, xPollcnt := pollcnt, resp := resp, inputs := inputs }

theorem unanswered_self (s : State) : unanswered s s.xElapsed s.xPollcnt s.resp s.inputs = s := rfl

section
variable {s : State} (hbusy : s.busy = true) (hopen : s.tOpen = true) (htq : s.tq = [])
  (hacc : decodeBuffer s.acc s.strict = .incomplete)
include hbusy hopen htq hacc

/-- One tick of an unanswered exchange that has not expired. -/
theorem step_unanswered {elapsed pollcnt n : Nat} (resp : Response) (hearly : pollcnt = 0 → elapsed ≤ s.xTimeout) :
    step (unanswered s elapsed pollcnt resp (List.replicate (n + 1) .tick)) =
      .next (unanswered s (s.sat (elapsed + 1)) (if pollcnt = 0 then s.params.pollInterval - 1 else pollcnt - 1)
        .nothing (List.replicate n .tick)) := by
  rw [step_of_tick List.replicate_succ]
  exact exec_tick_of_unanswered (s := unanswered s elapsed pollcnt resp (List.replicate n .tick)) hbusy hopen htq hacc
    hearly

/-- With the largest timeout an unanswered exchange is in flight after any number of ticks. -/
theorem run_unanswered_of_largest_timeout (htimeout : s.xTimeout = 2 ^ s.params.timerW - 1) (k : Nat)
    {elapsed : Nat} (pollcnt : Nat) (resp : Response) (helapsed : elapsed < 2 ^ s.params.timerW) :
    ∃ elapsed' pollcnt' resp', Host.Core.run Sys2Proof.core k
      (unanswered s elapsed pollcnt resp (List.replicate k .tick)) =
        .next (unanswered s elapsed' pollcnt' resp' []) := by
  induction k generalizing elapsed pollcnt resp with
  | zero => exact ⟨elapsed, pollcnt, resp, rfl⟩
  | succ k ih =>
    rw [run_succ_of_step k (step_unanswered hbusy hopen htq hacc resp fun _ => by omega)]
    exact ih _ _ (sat_lt s _)

/-- While the timeout is not past, the poll counter counts down to the next multiple of the poll interval, at which
the exchange looks at the timeout (41_correlator_ops.md R159). -/
theorem run_unanswered (hpos : 0 < s.params.pollInterval) (resp : Response) {total k n : Nat} (htotal : k + n = total)
    (hk : k ≤ s.params.pollInterval * (s.xTimeout / s.params.pollInterval + 1)) :
    ∃ pollcnt attempts resp', pollcnt < s.params.pollInterval ∧ k + pollcnt = s.params.pollInterval * attempts ∧
      Host.Core.run Sys2Proof.core k (unanswered s 0 0 resp (List.replicate total .tick)) =
        .next (unanswered s (s.sat k) pollcnt resp' (List.replicate n .tick)) := by
  induction k generalizing n with
  | zero =>
    obtain rfl : n = total := by omega
    exact ⟨0, 0, resp, hpos, rfl, by rw [sat_zero]; rfl⟩
  | succ k ih =>
    obtain ⟨pollcnt, attempts, resp', hlt, hnext, hrun⟩ := ih (n := n + 1) (by omega) (Nat.le_of_succ_le hk)
    have hearly (hpoll : pollcnt = 0) : s.sat k ≤ s.xTimeout := by
      have hattempts : attempts < s.xTimeout / s.params.pollInterval + 1 := by
        refine Nat.lt_of_mul_lt_mul_left (a := s.params.pollInterval) ?_
        omega
      have hdone : k ≤ s.xTimeout := calc
        k = s.params.pollInterval * attempts := by omega
        _ ≤ s.params.pollInterval * (s.xTimeout / s.params.pollInterval) :=
          Nat.mul_le_mul_left _ (Nat.le_of_lt_succ hattempts)
        _ ≤ s.xTimeout := Nat.mul_div_le _ _
      exact (Nat.min_le_left _ _).trans hdone
    have hstep := step_unanswered (n := n) hbusy hopen htq hacc resp' hearly
    rw [← run_succ_of_run hrun, sat_sat_succ] at hstep
    rcases Nat.eq_zero_or_pos pollcnt with rfl | hwaits
    · rw [if_pos rfl] at hstep
      exact ⟨_, attempts + 1, .nothing, by omega, by rw [Nat.mul_succ]; omega, hstep⟩
    · rw [if_neg hwaits.ne'] at hstep
      exact ⟨_, attempts, .nothing, by omega, by omega, hstep⟩

end

/-! ## The statements -/

/-- Settles O40: the count the statement writes out is what the attempt pulls. -/
theorem aFramePresentBeatsTheDeadline : Obligations.AFramePresentBeatsTheDeadline := by
  intro s garbage later cmd payload n hbusy hpoll hopen hfits hgarbage hbuf
  have hn : s.pullCount s.tq.length = n := by
    rw [pullCount_pending]
    cases hcap : s.params.accCap <;> simp [n, hcap, limitToRoom]
  refine ⟨_, exec_tick_of_frame_present hbusy hpoll hopen hfits hgarbage (hn ▸ hbuf), by simp [State.busy], rfl, rfl,
    rfl, rfl, rfl, ?_⟩
  exact congrArg s.tq.drop hn

/-- Settles O41: XCHG empties the accumulator only, so the first attempt pulls the stale frame whole. -/
theorem aStaleFrameIsDeliveredToTheNewRequest : Obligations.AStaleFrameIsDeliveredToTheNewRequest := by
  intro s cmd stale payload old later timeout hlegal hcorr hidle hopen hfits hold htq
  have hxchg := xchgOp_of_open cmd timeout hcorr (by simp [State.busy, hidle]) hfits hopen
  generalize ht : (startExchange cmd payload timeout s).respond (.status .ok) = t at hxchg
  have hbusy : t.busy = true := by
    rw [← ht]
    exact startExchange_busy cmd payload timeout s hcorr
  obtain ⟨hparams, hacc, hpoll, hsame, hstill⟩ :
      t.params = s.params ∧ t.acc = [] ∧ t.xPollcnt = 0 ∧ t.tq = s.tq ∧ t.tOpen = s.tOpen := by
    rw [← ht]
    exact ⟨rfl, rfl, rfl, rfl, rfl⟩
  have hpulled := le_pullCount_pending (hparams ▸ hlegal) hacc (m := (encodeFrame stale old).length)
    (by rw [hsame, htq, List.length_append]; omega) (by rw [encodeFrame_length]; omega)
  have hbuf : t.acc ++ t.tq.take (t.pullCount t.tq.length) = [] ++ encodeFrame stale old ++
      later.take (t.pullCount t.tq.length - (encodeFrame stale old).length) := by
    rw [hacc, hsame, htq, List.take_append, List.take_of_length_le (by rwa [hsame, htq] at hpulled)]
    rfl
  exact ⟨t, _, congrArg Host.Outcome.next hxchg, hsame,
    exec_tick_of_frame_present hbusy hpoll (hstill.trans hopen) hold (by simp) hbuf, by simp [State.busy], rfl,
    rfl, rfl⟩

/-- Settles O42: before the first attempt past the timeout the exchange only counts; that attempt finds the poll counter
at 0 and the timeout past. -/
theorem anUnansweredExchangeTimesOutOnTime : Obligations.AnUnansweredExchangeTimesOutOnTime := by
  intro s hlegal hcorr hstate helapsed hpoll hopen htq hacc htimeout ticks hinputs
  have hbusy := (busy_iff_xState hcorr).mpr hstate
  have hpos := pollInterval_pos_of_legal hlegal
  have hstart := unanswered_self s
  rw [helapsed, hpoll, hinputs] at hstart
  have hrun {k n : Nat} (htotal : k + n = ticks) (hn : 0 < n) :=
    run_unanswered hbusy hopen htq hacc hpos s.resp htotal (by omega)
  rw [hstart] at hrun
  refine ⟨fun k hk => ?_, ?_⟩
  · obtain ⟨pollcnt, attempts, resp, -, -, h⟩ := hrun (k := k) (n := ticks - k) (by omega) (by omega)
    exact ⟨_, h, hbusy, rfl⟩
  · obtain ⟨pollcnt, attempts, resp, hlt, hnext, h⟩ := hrun (k := ticks - 1) (n := 1) rfl Nat.one_pos
    have hdue : pollcnt = 0 :=
      Nat.eq_zero_of_dvd_of_lt ((Nat.dvd_add_right (Nat.dvd_mul_right _ _)).mp ⟨attempts, hnext⟩) hlt
    have hlate : s.xTimeout < s.sat (ticks - 1) := lt_min (Nat.lt_mul_div_succ _ hpos) htimeout
    have hend := exec_tick_of_expired (s := unanswered s (s.sat (ticks - 1)) pollcnt resp []) hbusy hopen htq hacc hdue
      hlate
    refine ⟨_, (run_succ_of_run h).trans ((step_of_tick rfl).trans hend), by simp [State.busy], rfl, ?_, rfl, rfl⟩
    exact sat_sat_succ s (ticks - 1)

/-- Settles O43: no count passes the largest timeout, so every attempt leaves the exchange in flight. -/
theorem theLargestTimeoutNeverExpires : Obligations.TheLargestTimeoutNeverExpires := by
  intro s k _ hcorr hstate helapsed hopen htq hacc htimeout hinputs
  have hbusy := (busy_iff_xState hcorr).mpr hstate
  have hstart := unanswered_self s
  rw [hinputs] at hstart
  obtain ⟨elapsed, pollcnt, resp, hrun⟩ :=
    run_unanswered_of_largest_timeout hbusy hopen htq hacc htimeout k s.xPollcnt s.resp helapsed
  rw [hstart] at hrun
  exact ⟨_, hrun, hbusy, _, exec_reset _, by simp [resetOp_eq, State.busy], rfl⟩

end Sys2Proof.Machine
end
